-- ==== Sys2Proof/Word.lean ====
section
/-! DEFINITION. The word types of the CORE (00_scope.md R12, R13: 32-bit registers and addresses, little parts of
them in bytes and halfwords) and nothing else. Shifts, alignment, sign extension and byte order stand in files under
Machine/, where they may be mended. -/

namespace Sys2Proof

/-- A register or an address (R12, XLEN = 32). -/
abbrev Word := BitVec 32

/-- A halfword: a Thumb instruction or a 16-bit datum (R63, R90). -/
abbrev Half := BitVec 16

/-- A byte, the smallest addressable unit (R61). -/
abbrev Byte := BitVec 8

end Sys2Proof
end

