-- ==== Sys2Proof/Config.lean ====
section
/-! DEFINITION. Who executes (processors A and B), the implementation parameters of 00_scope.md R12 as one record of
plain data that State carries and no step changes, and the free values: constants without a body, so that no proof can
lean on what they are. -/

namespace Sys2Proof

/-- The two processor agents (R2). A is the ARMv5TE processor (identifier 0), B the ARMv4T one (identifier 1): R3, R4,
R407. -/
inductive Proc where
  | A
  | B
deriving DecidableEq, Repr, Inhabited

/-- The other of the two processors. -/
def Proc.other : Proc → Proc
  | .A => .B
  | .B => .A

/-- One thing for each processor. -/
structure Pair (α : Type) where
  a : α
  b : α
deriving DecidableEq, Repr, Inhabited

/-- The part of processor p. -/
def Pair.get {α : Type} (x : Pair α) : Proc → α
  | .A => x.a
  | .B => x.b

/-- Put v in the place of processor p. -/
def Pair.put {α : Type} (x : Pair α) (p : Proc) (v : α) : Pair α :=
  match p with
  | .A => { x with a := v }
  | .B => { x with b := v }

/-- Change the part of processor p by f. -/
def Pair.modify {α : Type} (x : Pair α) (p : Proc) (f : α → α) : Pair α := x.put p (f (x.get p))

/-- A number of cycles or ticks that is at least one (D11, D34: HALT_QUANTUM, SCHED_QUANTUM and every WAITSTATE entry
are at least 1). What is stored is how many there are beyond the first. -/
structure Cycles where
  extra : Nat
deriving DecidableEq, Repr, Inhabited

/-- The number itself. -/
def Cycles.count (c : Cycles) : Nat := c.extra + 1

/-- What A does on PLD (R12 PLD_POLICY, R282). -/
inductive PldPolicy where
  | fatal
  | nop
deriving DecidableEq, Repr, Inhabited

/-- The implementation parameters of R12 that the rules consult. They are arguments of the model: State carries one such
record, every claim about every state therefore holds for every value of them, and no step changes them (log entry 3).
WAITSTATE is not here: the table is state (R48). MUL_CARRY_B is not here: it is a draw (D23, Config.freeCarry). COST is
the default of R440 to R442, written in Machine/Ops.lean and the meanings. -/
structure Config where
  /-- IMM_CARRY_TEST (R161, D15). -/
  immCarryTest : Bool
  /-- PC_REGSHIFT_OFFSET (R162, D16). -/
  pcRegShiftOffset : Word
  /-- STORE_PC_OFFSET (R222, R241, D17). -/
  storePcOffset : Word
  /-- PLD_POLICY (R282, D5). -/
  pldPolicy : PldPolicy
  /-- VECTOR_ON_WAKE (R392, D10). -/
  vectorOnWake : Bool
  /-- HLE_BIOS[p]: none, or the call numbers the host's handler services (R410, D37). -/
  hleBios : Pair (Option (List (BitVec 8)))
  /-- INTERLEAVE: which processor is looked at first in a catch-up round (R401, D12). -/
  first : Proc
  /-- HALT_QUANTUM[p] (R392, D11). -/
  haltQuantum : Pair Cycles
  /-- SCHED_QUANTUM (R401, D11). -/
  schedQuantum : Cycles
  /-- IRQ_ENTRY_CYCLES[p] (R388, D43). -/
  irqEntryCycles : Pair Nat
deriving DecidableEq, Repr

/-- The parameters as the spec decides them (R12: the rows with a D-number), and for the OPEN rows HALT_QUANTUM,
SCHED_QUANTUM and IRQ_ENTRY_CYCLES the values 1, 4 and 0. DESIGN CHOICE (log entry 4), unsafe for a claim about the
reset state alone: the spec leaves those three open. -/
def Config.standard : Config where
  immCarryTest := false
  pcRegShiftOffset := 12
  storePcOffset := 12
  pldPolicy := .fatal
  vectorOnWake := false
  hleBios := ⟨none, none⟩
  first := .A
  haltQuantum := ⟨⟨0⟩, ⟨0⟩⟩
  schedQuantum := ⟨3⟩
  irqEntryCycles := ⟨0, 0⟩

/-- EXC_BASE (R44, D6): the exception base of each processor, changed by nothing. -/
def Config.excBase : Proc → Word
  | .A => 0xFFFF0000#32
  | .B => 0x00000000#32

/-- MUL_CARRY_B (R191, D23): the carry that B leaves after a flag-setting multiply is open; the n-th draw. -/
opaque Config.freeCarry : Nat → Bool

end Sys2Proof
end

