-- ==== Sys2Proof/Syntax.lean ====
section
/-! DEFINITION. The instructions: one constructor for each row of spec/opcode_table.json (LAWS.json maps each to its
mnemonic), its arguments the row's fields with the widths of 30_encoding.md R96 to R112. Fields the spec ignores
(should-be-zero, should-be-one, Rn of MOV, the high nibble of a register-offset halfword transfer) are not kept
(R92, D3). Register numbers stay the 4-bit or 3-bit numbers the encodings give (R13, R52). -/

namespace Sys2Proof

/-- The fifteen conditions of R130; 0b1111 is not a condition (R93). -/
inductive Cond where
  | eq | ne | cs | cc | mi | pl | vs | vc | hi | ls | ge | lt | gt | le | al
deriving DecidableEq, Repr, Inhabited

/-- Shift types of R96: 00 LSL, 01 LSR, 10 ASR, 11 ROR (an immediate ROR of 0 is RRX, R137). -/
inductive ShiftType where
  | lsl | lsr | asr | ror
deriving DecidableEq, Repr, Inhabited

/-- A general register number, 0 to 15. -/
abbrev Reg := BitVec 4

/-- A register number in a 3-bit Thumb field, R0 to R7. -/
abbrev LowReg := BitVec 3

/-- Offset of a halfword, signed or doubleword transfer (R104): an 8-bit immediate (I = 1) or a register (I = 0). -/
inductive HalfOffset where
  | imm (imm8 : BitVec 8)
  | reg (rm : Reg)
deriving DecidableEq, Repr, Inhabited

/-- One constructor for each row of the opcode table, in the table's families; the comment gives the row and its rule. -/
inductive Instr where
  /-- AND_imm (R165). -/
  | andImm (c : Cond) (sf : Bool) (rn rd : Reg) (rot : BitVec 4) (imm8 : BitVec 8)
  /-- AND_rsi (R165). -/
  | andRsi (c : Cond) (sf : Bool) (rn rd : Reg) (sh : BitVec 5) (ty : ShiftType) (rm : Reg)
  /-- AND_rsr (R165). -/
  | andRsr (c : Cond) (sf : Bool) (rn rd rs : Reg) (ty : ShiftType) (rm : Reg)
  /-- EOR_imm (R166). -/
  | eorImm (c : Cond) (sf : Bool) (rn rd : Reg) (rot : BitVec 4) (imm8 : BitVec 8)
  /-- EOR_rsi (R166). -/
  | eorRsi (c : Cond) (sf : Bool) (rn rd : Reg) (sh : BitVec 5) (ty : ShiftType) (rm : Reg)
  /-- EOR_rsr (R166). -/
  | eorRsr (c : Cond) (sf : Bool) (rn rd rs : Reg) (ty : ShiftType) (rm : Reg)
  /-- SUB_imm (R167). -/
  | subImm (c : Cond) (sf : Bool) (rn rd : Reg) (rot : BitVec 4) (imm8 : BitVec 8)
  /-- SUB_rsi (R167). -/
  | subRsi (c : Cond) (sf : Bool) (rn rd : Reg) (sh : BitVec 5) (ty : ShiftType) (rm : Reg)
  /-- SUB_rsr (R167). -/
  | subRsr (c : Cond) (sf : Bool) (rn rd rs : Reg) (ty : ShiftType) (rm : Reg)
  /-- RSB_imm (R168). -/
  | rsbImm (c : Cond) (sf : Bool) (rn rd : Reg) (rot : BitVec 4) (imm8 : BitVec 8)
  /-- RSB_rsi (R168). -/
  | rsbRsi (c : Cond) (sf : Bool) (rn rd : Reg) (sh : BitVec 5) (ty : ShiftType) (rm : Reg)
  /-- RSB_rsr (R168). -/
  | rsbRsr (c : Cond) (sf : Bool) (rn rd rs : Reg) (ty : ShiftType) (rm : Reg)
  /-- ADD_imm (R169). -/
  | addImm (c : Cond) (sf : Bool) (rn rd : Reg) (rot : BitVec 4) (imm8 : BitVec 8)
  /-- ADD_rsi (R169). -/
  | addRsi (c : Cond) (sf : Bool) (rn rd : Reg) (sh : BitVec 5) (ty : ShiftType) (rm : Reg)
  /-- ADD_rsr (R169). -/
  | addRsr (c : Cond) (sf : Bool) (rn rd rs : Reg) (ty : ShiftType) (rm : Reg)
  /-- ADC_imm (R170). -/
  | adcImm (c : Cond) (sf : Bool) (rn rd : Reg) (rot : BitVec 4) (imm8 : BitVec 8)
  /-- ADC_rsi (R170). -/
  | adcRsi (c : Cond) (sf : Bool) (rn rd : Reg) (sh : BitVec 5) (ty : ShiftType) (rm : Reg)
  /-- ADC_rsr (R170). -/
  | adcRsr (c : Cond) (sf : Bool) (rn rd rs : Reg) (ty : ShiftType) (rm : Reg)
  /-- SBC_imm (R171). -/
  | sbcImm (c : Cond) (sf : Bool) (rn rd : Reg) (rot : BitVec 4) (imm8 : BitVec 8)
  /-- SBC_rsi (R171). -/
  | sbcRsi (c : Cond) (sf : Bool) (rn rd : Reg) (sh : BitVec 5) (ty : ShiftType) (rm : Reg)
  /-- SBC_rsr (R171). -/
  | sbcRsr (c : Cond) (sf : Bool) (rn rd rs : Reg) (ty : ShiftType) (rm : Reg)
  /-- RSC_imm (R172). -/
  | rscImm (c : Cond) (sf : Bool) (rn rd : Reg) (rot : BitVec 4) (imm8 : BitVec 8)
  /-- RSC_rsi (R172). -/
  | rscRsi (c : Cond) (sf : Bool) (rn rd : Reg) (sh : BitVec 5) (ty : ShiftType) (rm : Reg)
  /-- RSC_rsr (R172). -/
  | rscRsr (c : Cond) (sf : Bool) (rn rd rs : Reg) (ty : ShiftType) (rm : Reg)
  /-- TST_imm (R173). -/
  | tstImm (c : Cond) (rn : Reg) (rot : BitVec 4) (imm8 : BitVec 8)
  /-- TST_rsi (R173). -/
  | tstRsi (c : Cond) (rn : Reg) (sh : BitVec 5) (ty : ShiftType) (rm : Reg)
  /-- TST_rsr (R173). -/
  | tstRsr (c : Cond) (rn rs : Reg) (ty : ShiftType) (rm : Reg)
  /-- TEQ_imm (R174). -/
  | teqImm (c : Cond) (rn : Reg) (rot : BitVec 4) (imm8 : BitVec 8)
  /-- TEQ_rsi (R174). -/
  | teqRsi (c : Cond) (rn : Reg) (sh : BitVec 5) (ty : ShiftType) (rm : Reg)
  /-- TEQ_rsr (R174). -/
  | teqRsr (c : Cond) (rn rs : Reg) (ty : ShiftType) (rm : Reg)
  /-- CMP_imm (R175). -/
  | cmpImm (c : Cond) (rn : Reg) (rot : BitVec 4) (imm8 : BitVec 8)
  /-- CMP_rsi (R175). -/
  | cmpRsi (c : Cond) (rn : Reg) (sh : BitVec 5) (ty : ShiftType) (rm : Reg)
  /-- CMP_rsr (R175). -/
  | cmpRsr (c : Cond) (rn rs : Reg) (ty : ShiftType) (rm : Reg)
  /-- CMN_imm (R176). -/
  | cmnImm (c : Cond) (rn : Reg) (rot : BitVec 4) (imm8 : BitVec 8)
  /-- CMN_rsi (R176). -/
  | cmnRsi (c : Cond) (rn : Reg) (sh : BitVec 5) (ty : ShiftType) (rm : Reg)
  /-- CMN_rsr (R176). -/
  | cmnRsr (c : Cond) (rn rs : Reg) (ty : ShiftType) (rm : Reg)
  /-- ORR_imm (R177). -/
  | orrImm (c : Cond) (sf : Bool) (rn rd : Reg) (rot : BitVec 4) (imm8 : BitVec 8)
  /-- ORR_rsi (R177). -/
  | orrRsi (c : Cond) (sf : Bool) (rn rd : Reg) (sh : BitVec 5) (ty : ShiftType) (rm : Reg)
  /-- ORR_rsr (R177). -/
  | orrRsr (c : Cond) (sf : Bool) (rn rd rs : Reg) (ty : ShiftType) (rm : Reg)
  /-- MOV_imm (R178). -/
  | movImm (c : Cond) (sf : Bool) (rd : Reg) (rot : BitVec 4) (imm8 : BitVec 8)
  /-- MOV_rsi (R178). -/
  | movRsi (c : Cond) (sf : Bool) (rd : Reg) (sh : BitVec 5) (ty : ShiftType) (rm : Reg)
  /-- MOV_rsr (R178). -/
  | movRsr (c : Cond) (sf : Bool) (rd rs : Reg) (ty : ShiftType) (rm : Reg)
  /-- BIC_imm (R179). -/
  | bicImm (c : Cond) (sf : Bool) (rn rd : Reg) (rot : BitVec 4) (imm8 : BitVec 8)
  /-- BIC_rsi (R179). -/
  | bicRsi (c : Cond) (sf : Bool) (rn rd : Reg) (sh : BitVec 5) (ty : ShiftType) (rm : Reg)
  /-- BIC_rsr (R179). -/
  | bicRsr (c : Cond) (sf : Bool) (rn rd rs : Reg) (ty : ShiftType) (rm : Reg)
  /-- MVN_imm (R180). -/
  | mvnImm (c : Cond) (sf : Bool) (rd : Reg) (rot : BitVec 4) (imm8 : BitVec 8)
  /-- MVN_rsi (R180). -/
  | mvnRsi (c : Cond) (sf : Bool) (rd : Reg) (sh : BitVec 5) (ty : ShiftType) (rm : Reg)
  /-- MVN_rsr (R180). -/
  | mvnRsr (c : Cond) (sf : Bool) (rd rs : Reg) (ty : ShiftType) (rm : Reg)
  /-- MRS (R266). -/
  | mrs (c : Cond) (r : Bool) (rd : Reg)
  /-- MSR_reg_cpsr (R268). -/
  | msrRegCpsr (c : Cond) (mask : BitVec 4) (rm : Reg)
  /-- MSR_reg_spsr (R269). -/
  | msrRegSpsr (c : Cond) (mask : BitVec 4) (rm : Reg)
  /-- MSR_imm (R270). -/
  | msrImm (c : Cond) (r : Bool) (mask rot : BitVec 4) (imm8 : BitVec 8)
  /-- BX (R262). -/
  | bx (c : Cond) (rm : Reg)
  /-- BLX_reg (R263). -/
  | blxReg (c : Cond) (rm : Reg)
  /-- CLZ (R207). -/
  | clz (c : Cond) (rd rm : Reg)
  /-- QADD (R203). -/
  | qadd (c : Cond) (rn rd rm : Reg)
  /-- QSUB (R204). -/
  | qsub (c : Cond) (rn rd rm : Reg)
  /-- QDADD (R205). -/
  | qdadd (c : Cond) (rn rd rm : Reg)
  /-- QDSUB (R206). -/
  | qdsub (c : Cond) (rn rd rm : Reg)
  /-- BKPT (R281). -/
  | bkpt (c : Cond) (imm12 : BitVec 12) (imm4 : BitVec 4)
  /-- SMLAxy (R198). -/
  | smlaXy (c : Cond) (rd rn rs : Reg) (y x : Bool) (rm : Reg)
  /-- SMLAWy (R199). -/
  | smlawY (c : Cond) (rd rn rs : Reg) (y : Bool) (rm : Reg)
  /-- SMULWy (R200). -/
  | smulwY (c : Cond) (rd rs : Reg) (y : Bool) (rm : Reg)
  /-- SMLALxy (R201). -/
  | smlalXy (c : Cond) (rdHi rdLo rs : Reg) (y x : Bool) (rm : Reg)
  /-- SMULxy (R202). -/
  | smulXy (c : Cond) (rd rs : Reg) (y x : Bool) (rm : Reg)
  /-- MUL (R192). -/
  | mul (c : Cond) (sf : Bool) (rd rs rm : Reg)
  /-- MLA (R193). -/
  | mla (c : Cond) (sf : Bool) (rd rn rs rm : Reg)
  /-- UMULL (R194). -/
  | umull (c : Cond) (sf : Bool) (rdHi rdLo rs rm : Reg)
  /-- UMLAL (R195). -/
  | umlal (c : Cond) (sf : Bool) (rdHi rdLo rs rm : Reg)
  /-- SMULL (R196). -/
  | smull (c : Cond) (sf : Bool) (rdHi rdLo rs rm : Reg)
  /-- SMLAL (R197). -/
  | smlal (c : Cond) (sf : Bool) (rdHi rdLo rs rm : Reg)
  /-- SWP (R250). -/
  | swp (c : Cond) (rn rd rm : Reg)
  /-- SWPB (R251). -/
  | swpb (c : Cond) (rn rd rm : Reg)
  /-- LDRH (R227). -/
  | ldrh (c : Cond) (p u w : Bool) (rn rd : Reg) (off : HalfOffset)
  /-- STRH (R228). -/
  | strh (c : Cond) (p u w : Bool) (rn rd : Reg) (off : HalfOffset)
  /-- LDRSB (R229). -/
  | ldrsb (c : Cond) (p u w : Bool) (rn rd : Reg) (off : HalfOffset)
  /-- LDRSH (R230). -/
  | ldrsh (c : Cond) (p u w : Bool) (rn rd : Reg) (off : HalfOffset)
  /-- LDRD (R231). -/
  | ldrd (c : Cond) (p u w : Bool) (rn rd : Reg) (off : HalfOffset)
  /-- STRD (R232). -/
  | strd (c : Cond) (p u w : Bool) (rn rd : Reg) (off : HalfOffset)
  /-- LDR_imm (R221). -/
  | ldrImm (c : Cond) (p u w : Bool) (rn rd : Reg) (off12 : BitVec 12)
  /-- STR_imm (R222). -/
  | strImm (c : Cond) (p u w : Bool) (rn rd : Reg) (off12 : BitVec 12)
  /-- LDRB_imm (R223). -/
  | ldrbImm (c : Cond) (p u w : Bool) (rn rd : Reg) (off12 : BitVec 12)
  /-- STRB_imm (R224). -/
  | strbImm (c : Cond) (p u w : Bool) (rn rd : Reg) (off12 : BitVec 12)
  /-- LDRT_imm (R225). -/
  | ldrtImm (c : Cond) (u : Bool) (rn rd : Reg) (off12 : BitVec 12)
  /-- STRT_imm (R225). -/
  | strtImm (c : Cond) (u : Bool) (rn rd : Reg) (off12 : BitVec 12)
  /-- LDRBT_imm (R225). -/
  | ldrbtImm (c : Cond) (u : Bool) (rn rd : Reg) (off12 : BitVec 12)
  /-- STRBT_imm (R225). -/
  | strbtImm (c : Cond) (u : Bool) (rn rd : Reg) (off12 : BitVec 12)
  /-- LDR_reg (R221). -/
  | ldrReg (c : Cond) (p u w : Bool) (rn rd : Reg) (sh : BitVec 5) (ty : ShiftType) (rm : Reg)
  /-- STR_reg (R222). -/
  | strReg (c : Cond) (p u w : Bool) (rn rd : Reg) (sh : BitVec 5) (ty : ShiftType) (rm : Reg)
  /-- LDRB_reg (R223). -/
  | ldrbReg (c : Cond) (p u w : Bool) (rn rd : Reg) (sh : BitVec 5) (ty : ShiftType) (rm : Reg)
  /-- STRB_reg (R224). -/
  | strbReg (c : Cond) (p u w : Bool) (rn rd : Reg) (sh : BitVec 5) (ty : ShiftType) (rm : Reg)
  /-- LDRT_reg (R225). -/
  | ldrtReg (c : Cond) (u : Bool) (rn rd : Reg) (sh : BitVec 5) (ty : ShiftType) (rm : Reg)
  /-- STRT_reg (R225). -/
  | strtReg (c : Cond) (u : Bool) (rn rd : Reg) (sh : BitVec 5) (ty : ShiftType) (rm : Reg)
  /-- LDRBT_reg (R225). -/
  | ldrbtReg (c : Cond) (u : Bool) (rn rd : Reg) (sh : BitVec 5) (ty : ShiftType) (rm : Reg)
  /-- STRBT_reg (R225). -/
  | strbtReg (c : Cond) (u : Bool) (rn rd : Reg) (sh : BitVec 5) (ty : ShiftType) (rm : Reg)
  /-- LDM (R238). -/
  | ldm (c : Cond) (p u w : Bool) (rn : Reg) (list : BitVec 16)
  /-- LDM_S (R243). -/
  | ldmS (c : Cond) (p u w : Bool) (rn : Reg) (list : BitVec 16)
  /-- STM (R241). -/
  | stm (c : Cond) (p u w : Bool) (rn : Reg) (list : BitVec 16)
  /-- STM_S (R243). -/
  | stmS (c : Cond) (p u w : Bool) (rn : Reg) (list : BitVec 16)
  /-- B (R260). -/
  | b (c : Cond) (off24 : BitVec 24)
  /-- BL (R261). -/
  | bl (c : Cond) (off24 : BitVec 24)
  /-- BLX_imm (R264). -/
  | blxImm (h : Bool) (off24 : BitVec 24)
  /-- PLD (R282). -/
  | pld (i u : Bool) (rn : Reg) (off12 : BitVec 12)
  /-- SWI (R265). -/
  | swi (c : Cond) (comment24 : BitVec 24)
  /-- MCR (R277). -/
  | mcr (c : Cond) (opc1 : BitVec 3) (crn rd cp : Reg) (opc2 : BitVec 3) (crm : Reg)
  /-- MRC (R276). -/
  | mrc (c : Cond) (opc1 : BitVec 3) (crn rd cp : Reg) (opc2 : BitVec 3) (crm : Reg)
  /-- CDP (R279). -/
  | cdp (c : Cond) (opc1 : BitVec 4) (crn crd cp : Reg) (opc2 : BitVec 3) (crm : Reg)
  /-- MCRR_MRRC (R279). -/
  | mcrrMrrc (c : Cond) (l : Bool) (rn rd cp : Reg) (opc : BitVec 4) (crm : Reg)
  /-- LDC_STC (R279). -/
  | ldcStc (c : Cond) (p u n w l : Bool) (rn crd cp : Reg) (off8 : BitVec 8)
  /-- T_LSL_imm (R290). -/
  | tLslImm (off5 : BitVec 5) (rs rd : LowReg)
  /-- T_LSR_imm (R291). -/
  | tLsrImm (off5 : BitVec 5) (rs rd : LowReg)
  /-- T_ASR_imm (R292). -/
  | tAsrImm (off5 : BitVec 5) (rs rd : LowReg)
  /-- T_ADD_reg (R293). -/
  | tAddReg (rn rs rd : LowReg)
  /-- T_SUB_reg (R294). -/
  | tSubReg (rn rs rd : LowReg)
  /-- T_ADD_imm3 (R295). -/
  | tAddImm3 (off3 : BitVec 3) (rs rd : LowReg)
  /-- T_SUB_imm3 (R296). -/
  | tSubImm3 (off3 : BitVec 3) (rs rd : LowReg)
  /-- T_MOV_imm (R297). -/
  | tMovImm (rd : LowReg) (off8 : BitVec 8)
  /-- T_CMP_imm (R298). -/
  | tCmpImm (rd : LowReg) (off8 : BitVec 8)
  /-- T_ADD_imm8 (R299). -/
  | tAddImm8 (rd : LowReg) (off8 : BitVec 8)
  /-- T_SUB_imm8 (R300). -/
  | tSubImm8 (rd : LowReg) (off8 : BitVec 8)
  /-- T_AND (R301). -/
  | tAnd (rs rd : LowReg)
  /-- T_EOR (R302). -/
  | tEor (rs rd : LowReg)
  /-- T_LSL_reg (R303). -/
  | tLslReg (rs rd : LowReg)
  /-- T_LSR_reg (R304). -/
  | tLsrReg (rs rd : LowReg)
  /-- T_ASR_reg (R305). -/
  | tAsrReg (rs rd : LowReg)
  /-- T_ADC (R306). -/
  | tAdc (rs rd : LowReg)
  /-- T_SBC (R307). -/
  | tSbc (rs rd : LowReg)
  /-- T_ROR (R308). -/
  | tRor (rs rd : LowReg)
  /-- T_TST (R309). -/
  | tTst (rs rd : LowReg)
  /-- T_NEG (R310). -/
  | tNeg (rs rd : LowReg)
  /-- T_CMP_reg (R311). -/
  | tCmpReg (rs rd : LowReg)
  /-- T_CMN (R312). -/
  | tCmn (rs rd : LowReg)
  /-- T_ORR (R313). -/
  | tOrr (rs rd : LowReg)
  /-- T_MUL (R314). -/
  | tMul (rs rd : LowReg)
  /-- T_BIC (R315). -/
  | tBic (rs rd : LowReg)
  /-- T_MVN (R316). -/
  | tMvn (rs rd : LowReg)
  /-- T_ADD_hi (R317). -/
  | tAddHi (rs rd : Reg)
  /-- T_CMP_hi (R318). -/
  | tCmpHi (rs rd : Reg)
  /-- T_MOV_hi (R319). -/
  | tMovHi (rs rd : Reg)
  /-- T_BX (R320). -/
  | tBx (rs : Reg)
  /-- T_BLX_reg (R321). -/
  | tBlxReg (rs : Reg)
  /-- T_LDR_pc (R322). -/
  | tLdrPc (rd : LowReg) (word8 : BitVec 8)
  /-- T_STR_reg (R323). -/
  | tStrReg (ro rb rd : LowReg)
  /-- T_STRB_reg (R324). -/
  | tStrbReg (ro rb rd : LowReg)
  /-- T_LDR_reg (R325). -/
  | tLdrReg (ro rb rd : LowReg)
  /-- T_LDRB_reg (R326). -/
  | tLdrbReg (ro rb rd : LowReg)
  /-- T_STRH_reg (R327). -/
  | tStrhReg (ro rb rd : LowReg)
  /-- T_LDRH_reg (R328). -/
  | tLdrhReg (ro rb rd : LowReg)
  /-- T_LDSB_reg (R329). -/
  | tLdsbReg (ro rb rd : LowReg)
  /-- T_LDSH_reg (R330). -/
  | tLdshReg (ro rb rd : LowReg)
  /-- T_STR_imm (R331). -/
  | tStrImm (off5 : BitVec 5) (rb rd : LowReg)
  /-- T_LDR_imm (R332). -/
  | tLdrImm (off5 : BitVec 5) (rb rd : LowReg)
  /-- T_STRB_imm (R333). -/
  | tStrbImm (off5 : BitVec 5) (rb rd : LowReg)
  /-- T_LDRB_imm (R334). -/
  | tLdrbImm (off5 : BitVec 5) (rb rd : LowReg)
  /-- T_STRH_imm (R335). -/
  | tStrhImm (off5 : BitVec 5) (rb rd : LowReg)
  /-- T_LDRH_imm (R336). -/
  | tLdrhImm (off5 : BitVec 5) (rb rd : LowReg)
  /-- T_STR_sp (R340). -/
  | tStrSp (rd : LowReg) (word8 : BitVec 8)
  /-- T_LDR_sp (R341). -/
  | tLdrSp (rd : LowReg) (word8 : BitVec 8)
  /-- T_ADD_pc (R342). -/
  | tAddPc (rd : LowReg) (word8 : BitVec 8)
  /-- T_ADD_sp (R343). -/
  | tAddSp (rd : LowReg) (word8 : BitVec 8)
  /-- T_ADD_sp_imm (R344). -/
  | tAddSpImm (minus : Bool) (sword7 : BitVec 7)
  /-- T_PUSH (R345). -/
  | tPush (r : Bool) (rlist : BitVec 8)
  /-- T_POP (R346). -/
  | tPop (r : Bool) (rlist : BitVec 8)
  /-- T_BKPT (R363). -/
  | tBkpt (imm8 : BitVec 8)
  /-- T_STMIA (R347). -/
  | tStmia (rb : LowReg) (rlist : BitVec 8)
  /-- T_LDMIA (R348). -/
  | tLdmia (rb : LowReg) (rlist : BitVec 8)
  /-- T_Bcond (R349). -/
  | tBcond (c : Cond) (soff8 : BitVec 8)
  /-- T_SWI (R350). -/
  | tSwi (value8 : BitVec 8)
  /-- T_B (R351). -/
  | tB (off11 : BitVec 11)
  /-- T_BLX_suffix (R362). -/
  | tBlxSuffix (off11 : BitVec 11)
  /-- T_BL_prefix (R360). -/
  | tBlPrefix (off11 : BitVec 11)
  /-- T_BL_suffix (R361). -/
  | tBlSuffix (off11 : BitVec 11)
deriving DecidableEq, Repr

end Sys2Proof
end

