-- ==== Sys2Proof/WellFormed.lean ====
section
/-! DEFINITION. Which instructions have words of their own: the checks that the widths of the fields do not make by
themselves. Each is a place where 30_encoding.md gives the bit pattern to another row or to UNDEF. -/

namespace Sys2Proof

/-- P = 0 with W = 1 is the T form of a word or byte transfer (R105), and UNDEF for a halfword, signed or doubleword
transfer (R104, D32): neither is a word of the plain row. -/
def indexFormOk (p w : Bool) : Bool := p || !w

/-- The instruction has an encoding that decodes to itself: the index form is the row's own (R104, R105); an LDC or STC
is not the more specific MCRR or MRRC pattern (R109); a Thumb conditional branch has cond 0000 to 1101 (R112, D60); the
offset of a Thumb BLX suffix is even (R362, D49). -/
def Instr.wf : Instr → Bool
  | .ldrh _ p _ w _ _ _ | .strh _ p _ w _ _ _ | .ldrsb _ p _ w _ _ _ | .ldrsh _ p _ w _ _ _
  | .ldrd _ p _ w _ _ _ | .strd _ p _ w _ _ _ => indexFormOk p w
  | .ldrImm _ p _ w _ _ _ | .strImm _ p _ w _ _ _ | .ldrbImm _ p _ w _ _ _ | .strbImm _ p _ w _ _ _ => indexFormOk p w
  | .ldrReg _ p _ w _ _ _ _ _ | .strReg _ p _ w _ _ _ _ _ | .ldrbReg _ p _ w _ _ _ _ _
  | .strbReg _ p _ w _ _ _ _ _ => indexFormOk p w
  | .ldcStc _ p u n w _ _ _ _ _ => p || u || !n || w
  | .tBcond c _ => decide (c ≠ .al)
  | .tBlxSuffix off11 => !off11.getLsbD 0
  | _ => true

/-- The classes that only processor A has: ARMv5TE additions, UNDEF on B (R95, R125). The coprocessor words are not among
them: R126 makes every one of them UNSUPPORTED on B (DEDUCED, log entry 2). -/
def Instr.onlyA : Instr → Bool
  | .blxReg .. | .blxImm .. | .clz .. | .qadd .. | .qsub .. | .qdadd .. | .qdsub .. | .bkpt ..
  | .smlaXy .. | .smlawY .. | .smulwY .. | .smlalXy .. | .smulXy .. | .ldrd .. | .strd .. | .pld ..
  | .tBlxReg .. | .tBkpt .. | .tBlxSuffix .. => true
  | _ => false

end Sys2Proof
end

