-- ==== Sys2Proof/Decode.lean ====
section
/-! DEFINITION. Decoding, total on any bytes and rejecting by name, by the trees of 30_encoding.md R93, R95 (ARM) and R111
(Thumb), and after it the encoder, written from the formats of R96 to R112. Words are little-endian in memory (R62, R63). -/

namespace Sys2Proof

/-! ### Field values -/

/-- The condition field (R91, R130); 0b1111 is the unconditional space (R93). -/
def Cond.ofBits (b : BitVec 4) : Option Cond :=
  match b with
  | 0x0#4 => some .eq | 0x1#4 => some .ne | 0x2#4 => some .cs | 0x3#4 => some .cc
  | 0x4#4 => some .mi | 0x5#4 => some .pl | 0x6#4 => some .vs | 0x7#4 => some .vc
  | 0x8#4 => some .hi | 0x9#4 => some .ls | 0xA#4 => some .ge | 0xB#4 => some .lt
  | 0xC#4 => some .gt | 0xD#4 => some .le | 0xE#4 => some .al | _ => none

/-- The bits of a condition (R130). -/
def Cond.bits : Cond → BitVec 4
  | .eq => 0x0#4 | .ne => 0x1#4 | .cs => 0x2#4 | .cc => 0x3#4 | .mi => 0x4#4 | .pl => 0x5#4 | .vs => 0x6#4
  | .vc => 0x7#4 | .hi => 0x8#4 | .ls => 0x9#4 | .ge => 0xA#4 | .lt => 0xB#4 | .gt => 0xC#4 | .le => 0xD#4
  | .al => 0xE#4

/-- The shift type field (R96). -/
def ShiftType.ofBits (b : BitVec 2) : ShiftType :=
  match b with
  | 0b00#2 => .lsl | 0b01#2 => .lsr | 0b10#2 => .asr | _ => .ror

/-- The bits of a shift type (R96). -/
def ShiftType.bits : ShiftType → BitVec 2
  | .lsl => 0b00#2 | .lsr => 0b01#2 | .asr => 0b10#2 | .ror => 0b11#2

/-- Why bytes are not an instruction. Every reason but truncated is UNDEF of R125. -/
inductive DecodeError where
  /-- fewer bytes than an instruction of the state has -/
  | truncated
  /-- cond = 0b1111 other than BLX (immediate) and PLD on A (R93) -/
  | unconditionalSpace
  /-- w[7:4] = 1001 not matched by R95 -/
  | multiplySpace
  /-- halfword, signed or doubleword transfer with P = 0 and W = 1 (R104) -/
  | halfwordPostIndexedWriteback
  /-- the miscellaneous space of R95, not matched -/
  | miscSpace
  /-- MSR immediate with w[21] = 0 (R95) -/
  | msrImmediateSpace
  /-- single transfer, register offset, with w[4] = 1 (R95) -/
  | registerOffsetBit4
  /-- a class of A only, on B (R125) -/
  | onlyOnA
  /-- Thumb 11101 with h[0] = 1 (R111) -/
  | thumbBlxSuffixOdd
  /-- Thumb 1011 other than F13, F14 and BKPT (R125) -/
  | thumbMiscSpace
  /-- Thumb 11011110 (R111, D60) -/
  | thumbCondAl
deriving DecidableEq, Repr

/-- Give a class of A only to A, and UNDEF to B (R95, R125). -/
def onlyOnA (p : Proc) (i : Instr) : Except DecodeError Instr :=
  match p with
  | .A => .ok i
  | .B => .error .onlyOnA

/-! ### ARM state -/

/-- Data processing, immediate form, by the opcode of R96. -/
def decodeDpImm (op : BitVec 4) (c : Cond) (sf : Bool) (rn rd : Reg) (rot : BitVec 4) (imm8 : BitVec 8) : Instr :=
  match op with
  | 0x0#4 => .andImm c sf rn rd rot imm8
  | 0x1#4 => .eorImm c sf rn rd rot imm8
  | 0x2#4 => .subImm c sf rn rd rot imm8
  | 0x3#4 => .rsbImm c sf rn rd rot imm8
  | 0x4#4 => .addImm c sf rn rd rot imm8
  | 0x5#4 => .adcImm c sf rn rd rot imm8
  | 0x6#4 => .sbcImm c sf rn rd rot imm8
  | 0x7#4 => .rscImm c sf rn rd rot imm8
  | 0x8#4 => .tstImm c rn rot imm8
  | 0x9#4 => .teqImm c rn rot imm8
  | 0xA#4 => .cmpImm c rn rot imm8
  | 0xB#4 => .cmnImm c rn rot imm8
  | 0xC#4 => .orrImm c sf rn rd rot imm8
  | 0xD#4 => .movImm c sf rd rot imm8
  | 0xE#4 => .bicImm c sf rn rd rot imm8
  | _ => .mvnImm c sf rd rot imm8

/-- Data processing, immediate-shift form, by the opcode of R96. -/
def decodeDpRsi (op : BitVec 4) (c : Cond) (sf : Bool) (rn rd : Reg) (sh : BitVec 5) (ty : ShiftType) (rm : Reg) : Instr :=
  match op with
  | 0x0#4 => .andRsi c sf rn rd sh ty rm
  | 0x1#4 => .eorRsi c sf rn rd sh ty rm
  | 0x2#4 => .subRsi c sf rn rd sh ty rm
  | 0x3#4 => .rsbRsi c sf rn rd sh ty rm
  | 0x4#4 => .addRsi c sf rn rd sh ty rm
  | 0x5#4 => .adcRsi c sf rn rd sh ty rm
  | 0x6#4 => .sbcRsi c sf rn rd sh ty rm
  | 0x7#4 => .rscRsi c sf rn rd sh ty rm
  | 0x8#4 => .tstRsi c rn sh ty rm
  | 0x9#4 => .teqRsi c rn sh ty rm
  | 0xA#4 => .cmpRsi c rn sh ty rm
  | 0xB#4 => .cmnRsi c rn sh ty rm
  | 0xC#4 => .orrRsi c sf rn rd sh ty rm
  | 0xD#4 => .movRsi c sf rd sh ty rm
  | 0xE#4 => .bicRsi c sf rn rd sh ty rm
  | _ => .mvnRsi c sf rd sh ty rm

/-- Data processing, register-shift form, by the opcode of R96. -/
def decodeDpRsr (op : BitVec 4) (c : Cond) (sf : Bool) (rn rd : Reg) (rs : Reg) (ty : ShiftType) (rm : Reg) : Instr :=
  match op with
  | 0x0#4 => .andRsr c sf rn rd rs ty rm
  | 0x1#4 => .eorRsr c sf rn rd rs ty rm
  | 0x2#4 => .subRsr c sf rn rd rs ty rm
  | 0x3#4 => .rsbRsr c sf rn rd rs ty rm
  | 0x4#4 => .addRsr c sf rn rd rs ty rm
  | 0x5#4 => .adcRsr c sf rn rd rs ty rm
  | 0x6#4 => .sbcRsr c sf rn rd rs ty rm
  | 0x7#4 => .rscRsr c sf rn rd rs ty rm
  | 0x8#4 => .tstRsr c rn rs ty rm
  | 0x9#4 => .teqRsr c rn rs ty rm
  | 0xA#4 => .cmpRsr c rn rs ty rm
  | 0xB#4 => .cmnRsr c rn rs ty rm
  | 0xC#4 => .orrRsr c sf rn rd rs ty rm
  | 0xD#4 => .movRsr c sf rd rs ty rm
  | 0xE#4 => .bicRsr c sf rn rd rs ty rm
  | _ => .mvnRsr c sf rd rs ty rm

/-- The multiply and swap space, w[7:4] = 1001 (R95, R99, R103). -/
def decodeMultiplySpace (c : Cond) (w : Word) : Except DecodeError Instr :=
  let hi : Reg := w.extractLsb' 16 4
  let lo : Reg := w.extractLsb' 12 4
  let rs : Reg := w.extractLsb' 8 4
  let rm : Reg := w.extractLsb' 0 4
  let sf := w.getLsbD 20
  if w.extractLsb' 22 3 = 0b000#3 then
    if w.getLsbD 21 then .ok (.mla c sf hi lo rs rm) else .ok (.mul c sf hi rs rm)
  else if w.extractLsb' 23 2 = 0b01#2 then
    match w.extractLsb' 21 2 with
    | 0b00#2 => .ok (.umull c sf hi lo rs rm)
    | 0b01#2 => .ok (.umlal c sf hi lo rs rm)
    | 0b10#2 => .ok (.smull c sf hi lo rs rm)
    | _ => .ok (.smlal c sf hi lo rs rm)
  else if w.extractLsb' 23 2 = 0b10#2 ∧ w.extractLsb' 20 2 = 0b00#2 then
    if w.getLsbD 22 then .ok (.swpb c hi lo rm) else .ok (.swp c hi lo rm)
  else .error .multiplySpace

/-- Halfword, signed and doubleword transfers, w[7] = w[4] = 1 and w[6:5] not 00 (R95, R104). -/
def decodeHalfwordSpace (p : Proc) (c : Cond) (w : Word) : Except DecodeError Instr :=
  let pre := w.getLsbD 24
  let up := w.getLsbD 23
  let wb := w.getLsbD 21
  let rn : Reg := w.extractLsb' 16 4
  let rd : Reg := w.extractLsb' 12 4
  let off : HalfOffset :=
    if w.getLsbD 22 then .imm (w.extractLsb' 8 4 ++ w.extractLsb' 0 4) else .reg (w.extractLsb' 0 4)
  if !pre && wb then .error .halfwordPostIndexedWriteback
  else if w.getLsbD 20 then
    if w.extractLsb' 5 2 = 0b01#2 then .ok (.ldrh c pre up wb rn rd off)
    else if w.extractLsb' 5 2 = 0b10#2 then .ok (.ldrsb c pre up wb rn rd off)
    else .ok (.ldrsh c pre up wb rn rd off)
  else
    if w.extractLsb' 5 2 = 0b01#2 then .ok (.strh c pre up wb rn rd off)
    else if w.extractLsb' 5 2 = 0b10#2 then onlyOnA p (.ldrd c pre up wb rn rd off)
    else onlyOnA p (.strd c pre up wb rn rd off)

/-- Signed halfword multiplies, w[7] = 1 and w[4] = 0 of the miscellaneous space (R95, R100). -/
def decodeSignedMultiply (c : Cond) (w : Word) : Instr :=
  let hi : Reg := w.extractLsb' 16 4
  let lo : Reg := w.extractLsb' 12 4
  let rs : Reg := w.extractLsb' 8 4
  let rm : Reg := w.extractLsb' 0 4
  let y := w.getLsbD 6
  let x := w.getLsbD 5
  match w.extractLsb' 21 2 with
  | 0b00#2 => .smlaXy c hi lo rs y x rm
  | 0b01#2 => if x then .smulwY c hi rs y rm else .smlawY c hi lo rs y rm
  | 0b10#2 => .smlalXy c hi lo rs y x rm
  | _ => .smulXy c hi rs y x rm

/-- The miscellaneous space, w[24:23] = 10 and w[20] = 0 (R95, R98, R100 to R102). -/
def decodeMiscSpace (p : Proc) (c : Cond) (w : Word) : Except DecodeError Instr :=
  let op := w.extractLsb' 21 2
  let low := w.extractLsb' 4 4
  let rn : Reg := w.extractLsb' 16 4
  let rd : Reg := w.extractLsb' 12 4
  let rm : Reg := w.extractLsb' 0 4
  if low = 0b0000#4 then
    match op with
    | 0b00#2 => .ok (.mrs c false rd)
    | 0b10#2 => .ok (.mrs c true rd)
    | 0b01#2 => .ok (.msrRegCpsr c rn rm)
    | _ => .ok (.msrRegSpsr c rn rm)
  else if low = 0b0001#4 then
    if op = 0b01#2 then .ok (.bx c rm)
    else if op = 0b11#2 then onlyOnA p (.clz c rd rm)
    else .error .miscSpace
  else if low = 0b0011#4 then
    if op = 0b01#2 then onlyOnA p (.blxReg c rm) else .error .miscSpace
  else if low = 0b0101#4 then
    match op with
    | 0b00#2 => onlyOnA p (.qadd c rn rd rm)
    | 0b01#2 => onlyOnA p (.qsub c rn rd rm)
    | 0b10#2 => onlyOnA p (.qdadd c rn rd rm)
    | _ => onlyOnA p (.qdsub c rn rd rm)
  else if low = 0b0111#4 then
    if op = 0b01#2 then onlyOnA p (.bkpt c (w.extractLsb' 8 12) rm) else .error .miscSpace
  else if w.getLsbD 7 && !w.getLsbD 4 then onlyOnA p (decodeSignedMultiply c w)
  else .error .miscSpace

/-- w[27:25] = 000 (R95). -/
def decodeRegisterSpace (p : Proc) (c : Cond) (w : Word) : Except DecodeError Instr :=
  if w.extractLsb' 4 4 = 0b1001#4 then decodeMultiplySpace c w
  else if w.getLsbD 7 && w.getLsbD 4 then decodeHalfwordSpace p c w
  else if w.extractLsb' 23 2 = 0b10#2 ∧ w.getLsbD 20 = false then decodeMiscSpace p c w
  else if w.getLsbD 4 = false then
    .ok (decodeDpRsi (w.extractLsb' 21 4) c (w.getLsbD 20) (w.extractLsb' 16 4) (w.extractLsb' 12 4)
      (w.extractLsb' 7 5) (ShiftType.ofBits (w.extractLsb' 5 2)) (w.extractLsb' 0 4))
  else
    .ok (decodeDpRsr (w.extractLsb' 21 4) c (w.getLsbD 20) (w.extractLsb' 16 4) (w.extractLsb' 12 4)
      (w.extractLsb' 8 4) (ShiftType.ofBits (w.extractLsb' 5 2)) (w.extractLsb' 0 4))

/-- w[27:25] = 001 (R95). -/
def decodeImmediateSpace (c : Cond) (w : Word) : Except DecodeError Instr :=
  if w.extractLsb' 23 2 = 0b10#2 ∧ w.getLsbD 20 = false then
    if w.getLsbD 21 then
      .ok (.msrImm c (w.getLsbD 22) (w.extractLsb' 16 4) (w.extractLsb' 8 4) (w.extractLsb' 0 8))
    else .error .msrImmediateSpace
  else
    .ok (decodeDpImm (w.extractLsb' 21 4) c (w.getLsbD 20) (w.extractLsb' 16 4) (w.extractLsb' 12 4)
      (w.extractLsb' 8 4) (w.extractLsb' 0 8))

/-- w[27:25] = 010: single transfers, immediate offset (R95, R105). -/
def decodeTransferImm (c : Cond) (w : Word) : Instr :=
  let p := w.getLsbD 24
  let u := w.getLsbD 23
  let wb := w.getLsbD 21
  let rn : Reg := w.extractLsb' 16 4
  let rd : Reg := w.extractLsb' 12 4
  let off := w.extractLsb' 0 12
  match !p && wb, w.getLsbD 22, w.getLsbD 20 with
  | true, false, true => .ldrtImm c u rn rd off
  | true, false, false => .strtImm c u rn rd off
  | true, true, true => .ldrbtImm c u rn rd off
  | true, true, false => .strbtImm c u rn rd off
  | false, false, true => .ldrImm c p u wb rn rd off
  | false, false, false => .strImm c p u wb rn rd off
  | false, true, true => .ldrbImm c p u wb rn rd off
  | false, true, false => .strbImm c p u wb rn rd off

/-- w[27:25] = 011 with w[4] = 0: single transfers, register offset (R95, R105). -/
def decodeTransferReg (c : Cond) (w : Word) : Instr :=
  let p := w.getLsbD 24
  let u := w.getLsbD 23
  let wb := w.getLsbD 21
  let rn : Reg := w.extractLsb' 16 4
  let rd : Reg := w.extractLsb' 12 4
  let sh := w.extractLsb' 7 5
  let ty := ShiftType.ofBits (w.extractLsb' 5 2)
  let rm : Reg := w.extractLsb' 0 4
  match !p && wb, w.getLsbD 22, w.getLsbD 20 with
  | true, false, true => .ldrtReg c u rn rd sh ty rm
  | true, false, false => .strtReg c u rn rd sh ty rm
  | true, true, true => .ldrbtReg c u rn rd sh ty rm
  | true, true, false => .strbtReg c u rn rd sh ty rm
  | false, false, true => .ldrReg c p u wb rn rd sh ty rm
  | false, false, false => .strReg c p u wb rn rd sh ty rm
  | false, true, true => .ldrbReg c p u wb rn rd sh ty rm
  | false, true, false => .strbReg c p u wb rn rd sh ty rm

/-- w[27:25] = 100: block transfers (R95, R106). -/
def decodeBlock (c : Cond) (w : Word) : Instr :=
  let p := w.getLsbD 24
  let u := w.getLsbD 23
  let wb := w.getLsbD 21
  let rn : Reg := w.extractLsb' 16 4
  let list := w.extractLsb' 0 16
  match w.getLsbD 22, w.getLsbD 20 with
  | false, true => .ldm c p u wb rn list
  | true, true => .ldmS c p u wb rn list
  | false, false => .stm c p u wb rn list
  | true, false => .stmS c p u wb rn list

/-- w[27:25] = 110: LDC, STC, MCRR, MRRC, unsupported on both processors (R95, R109, R126). -/
def decodeCoprocessorTransfer (c : Cond) (w : Word) : Instr :=
  if w.extractLsb' 21 4 = 0b0010#4 then
    .mcrrMrrc c (w.getLsbD 20) (w.extractLsb' 16 4) (w.extractLsb' 12 4) (w.extractLsb' 8 4) (w.extractLsb' 4 4)
      (w.extractLsb' 0 4)
  else
    .ldcStc c (w.getLsbD 24) (w.getLsbD 23) (w.getLsbD 22) (w.getLsbD 21) (w.getLsbD 20) (w.extractLsb' 16 4)
      (w.extractLsb' 12 4) (w.extractLsb' 8 4) (w.extractLsb' 0 8)

/-- w[27:25] = 111: SWI, CDP (unsupported), MCR and MRC (unsupported on B) (R95, R108, R109, R126; log entry 2). -/
def decodeSystemSpace (c : Cond) (w : Word) : Instr :=
  let crn : Reg := w.extractLsb' 16 4
  let rd : Reg := w.extractLsb' 12 4
  let cp : Reg := w.extractLsb' 8 4
  let crm : Reg := w.extractLsb' 0 4
  if w.getLsbD 24 then .swi c (w.extractLsb' 0 24)
  else if w.getLsbD 4 = false then .cdp c (w.extractLsb' 20 4) crn rd cp (w.extractLsb' 5 3) crm
  else if w.getLsbD 20 then .mrc c (w.extractLsb' 21 3) crn rd cp (w.extractLsb' 5 3) crm
  else .mcr c (w.extractLsb' 21 3) crn rd cp (w.extractLsb' 5 3) crm

/-- cond = 0b1111 (R93): BLX (immediate) and PLD on A, UNDEF otherwise. -/
def decodeUnconditional (p : Proc) (w : Word) : Except DecodeError Instr :=
  if w.extractLsb' 25 3 = 0b101#3 then onlyOnA p (.blxImm (w.getLsbD 24) (w.extractLsb' 0 24))
  else if w.extractLsb' 26 2 = 0b01#2 ∧ w.getLsbD 24 = true ∧ w.extractLsb' 20 3 = 0b101#3 then
    onlyOnA p (.pld (w.getLsbD 25) (w.getLsbD 23) (w.extractLsb' 16 4) (w.extractLsb' 0 12))
  else .error .unconditionalSpace

/-- The ARM decode tree (R93, R95). -/
def decodeArm (p : Proc) (w : Word) : Except DecodeError Instr :=
  match Cond.ofBits (w.extractLsb' 28 4) with
  | none => decodeUnconditional p w
  | some c =>
    match w.extractLsb' 25 3 with
    | 0b000#3 => decodeRegisterSpace p c w
    | 0b001#3 => decodeImmediateSpace c w
    | 0b010#3 => .ok (decodeTransferImm c w)
    | 0b011#3 => if w.getLsbD 4 then .error .registerOffsetBit4 else .ok (decodeTransferReg c w)
    | 0b100#3 => .ok (decodeBlock c w)
    | 0b101#3 => if w.getLsbD 24 then .ok (.bl c (w.extractLsb' 0 24)) else .ok (.b c (w.extractLsb' 0 24))
    | 0b110#3 => .ok (decodeCoprocessorTransfer c w)
    | _ => .ok (decodeSystemSpace c w)

/-! ### Thumb state -/

/-- F4, ALU operations, by op h[9:6] (R112). -/
def decodeThumbAlu (op : BitVec 4) (rs rd : LowReg) : Instr :=
  match op with
  | 0x0#4 => .tAnd rs rd
  | 0x1#4 => .tEor rs rd
  | 0x2#4 => .tLslReg rs rd
  | 0x3#4 => .tLsrReg rs rd
  | 0x4#4 => .tAsrReg rs rd
  | 0x5#4 => .tAdc rs rd
  | 0x6#4 => .tSbc rs rd
  | 0x7#4 => .tRor rs rd
  | 0x8#4 => .tTst rs rd
  | 0x9#4 => .tNeg rs rd
  | 0xA#4 => .tCmpReg rs rd
  | 0xB#4 => .tCmn rs rd
  | 0xC#4 => .tOrr rs rd
  | 0xD#4 => .tMul rs rd
  | 0xE#4 => .tBic rs rd
  | _ => .tMvn rs rd

/-- F5, high-register operations, BX and BLX, by op h[9:8] (R112); register numbers H1:Rd and H2:Rs. -/
def decodeThumbHigh (p : Proc) (h : Half) : Except DecodeError Instr :=
  let rd : Reg := h.extractLsb' 7 1 ++ h.extractLsb' 0 3
  let rs : Reg := h.extractLsb' 6 1 ++ h.extractLsb' 3 3
  match h.extractLsb' 8 2 with
  | 0b00#2 => .ok (.tAddHi rs rd)
  | 0b01#2 => .ok (.tCmpHi rs rd)
  | 0b10#2 => .ok (.tMovHi rs rd)
  | _ => if h.getLsbD 7 then onlyOnA p (.tBlxReg rs) else .ok (.tBx rs)

/-- F7 and F8, register-offset transfers, by h[11:9] (R112). -/
def decodeThumbTransferReg (h : Half) : Instr :=
  let ro : LowReg := h.extractLsb' 6 3
  let rb : LowReg := h.extractLsb' 3 3
  let rd : LowReg := h.extractLsb' 0 3
  match h.extractLsb' 9 3 with
  | 0b000#3 => .tStrReg ro rb rd
  | 0b010#3 => .tStrbReg ro rb rd
  | 0b100#3 => .tLdrReg ro rb rd
  | 0b110#3 => .tLdrbReg ro rb rd
  | 0b001#3 => .tStrhReg ro rb rd
  | 0b101#3 => .tLdrhReg ro rb rd
  | 0b011#3 => .tLdsbReg ro rb rd
  | _ => .tLdshReg ro rb rd

/-- F13, F14 and BKPT: 1011 xxxx (R111, R112). -/
def decodeThumbMisc (p : Proc) (h : Half) : Except DecodeError Instr :=
  if h.extractLsb' 8 4 = 0b0000#4 then .ok (.tAddSpImm (h.getLsbD 7) (h.extractLsb' 0 7))
  else if h.extractLsb' 9 2 = 0b10#2 then
    if h.getLsbD 11 then .ok (.tPop (h.getLsbD 8) (h.extractLsb' 0 8))
    else .ok (.tPush (h.getLsbD 8) (h.extractLsb' 0 8))
  else if h.extractLsb' 8 4 = 0b1110#4 then onlyOnA p (.tBkpt (h.extractLsb' 0 8))
  else .error .thumbMiscSpace

/-- F16 and F17: 1101 xxxx (R111, R112). -/
def decodeThumbCond (h : Half) : Except DecodeError Instr :=
  match Cond.ofBits (h.extractLsb' 8 4) with
  | none => .ok (.tSwi (h.extractLsb' 0 8))
  | some .al => .error .thumbCondAl
  | some c => .ok (.tBcond c (h.extractLsb' 0 8))

/-- h[15:13] = 010: F4 to F8 (R111). -/
def decodeThumb010 (p : Proc) (h : Half) : Except DecodeError Instr :=
  if h.extractLsb' 10 3 = 0b000#3 then
    .ok (decodeThumbAlu (h.extractLsb' 6 4) (h.extractLsb' 3 3) (h.extractLsb' 0 3))
  else if h.extractLsb' 10 3 = 0b001#3 then decodeThumbHigh p h
  else if h.extractLsb' 11 2 = 0b01#2 then .ok (.tLdrPc (h.extractLsb' 8 3) (h.extractLsb' 0 8))
  else .ok (decodeThumbTransferReg h)

/-- The Thumb decode tree (R111); the long-BLX suffix is checked first. -/
def decodeThumb (p : Proc) (h : Half) : Except DecodeError Instr :=
  let r0 : LowReg := h.extractLsb' 0 3
  let r3 : LowReg := h.extractLsb' 3 3
  let r6 : LowReg := h.extractLsb' 6 3
  let r8 : LowReg := h.extractLsb' 8 3
  let off5 := h.extractLsb' 6 5
  let imm8 := h.extractLsb' 0 8
  if h.extractLsb' 11 5 = 0b11101#5 then
    if h.getLsbD 0 then (match p with | .A => .error .thumbBlxSuffixOdd | .B => .error .onlyOnA)
    else onlyOnA p (.tBlxSuffix (h.extractLsb' 0 11))
  else match h.extractLsb' 13 3 with
    | 0b000#3 =>
      (match h.extractLsb' 11 2 with
      | 0b00#2 => .ok (.tLslImm off5 r3 r0)
      | 0b01#2 => .ok (.tLsrImm off5 r3 r0)
      | 0b10#2 => .ok (.tAsrImm off5 r3 r0)
      | _ =>
        (match h.extractLsb' 9 2 with
        | 0b00#2 => .ok (.tAddReg r6 r3 r0)
        | 0b01#2 => .ok (.tSubReg r6 r3 r0)
        | 0b10#2 => .ok (.tAddImm3 (h.extractLsb' 6 3) r3 r0)
        | _ => .ok (.tSubImm3 (h.extractLsb' 6 3) r3 r0)))
    | 0b001#3 =>
      (match h.extractLsb' 11 2 with
      | 0b00#2 => .ok (.tMovImm r8 imm8)
      | 0b01#2 => .ok (.tCmpImm r8 imm8)
      | 0b10#2 => .ok (.tAddImm8 r8 imm8)
      | _ => .ok (.tSubImm8 r8 imm8))
    | 0b010#3 => decodeThumb010 p h
    | 0b011#3 =>
      (match h.extractLsb' 11 2 with
      | 0b00#2 => .ok (.tStrImm off5 r3 r0)
      | 0b01#2 => .ok (.tLdrImm off5 r3 r0)
      | 0b10#2 => .ok (.tStrbImm off5 r3 r0)
      | _ => .ok (.tLdrbImm off5 r3 r0))
    | 0b100#3 =>
      (match h.extractLsb' 11 2 with
      | 0b00#2 => .ok (.tStrhImm off5 r3 r0)
      | 0b01#2 => .ok (.tLdrhImm off5 r3 r0)
      | 0b10#2 => .ok (.tStrSp r8 imm8)
      | _ => .ok (.tLdrSp r8 imm8))
    | 0b101#3 =>
      (match h.extractLsb' 11 2 with
      | 0b00#2 => .ok (.tAddPc r8 imm8)
      | 0b01#2 => .ok (.tAddSp r8 imm8)
      | _ => decodeThumbMisc p h)
    | 0b110#3 =>
      (match h.extractLsb' 11 2 with
      | 0b00#2 => .ok (.tStmia r8 imm8)
      | 0b01#2 => .ok (.tLdmia r8 imm8)
      | _ => decodeThumbCond h)
    | _ =>
      (match h.extractLsb' 11 2 with
      | 0b00#2 => .ok (.tB (h.extractLsb' 0 11))
      | 0b10#2 => .ok (.tBlPrefix (h.extractLsb' 0 11))
      | _ => .ok (.tBlSuffix (h.extractLsb' 0 11)))

/-! ### Words and bytes -/

/-- An instruction's word: 32 bits in ARM state, 16 in Thumb state (R90). -/
inductive Code where
  | arm (w : Word)
  | thumb (h : Half)
deriving DecidableEq, Repr

/-- Decode a word of either set on processor p (R90). -/
def decodeCode (p : Proc) : Code → Except DecodeError Instr
  | .arm w => decodeArm p w
  | .thumb h => decodeThumb p h

/-- Decode what a fetch brought, which is a word: with T = 1 the fetched halfword is its low half (R70, R90). -/
def decodeFetched (p : Proc) (t : Bool) (w : Word) : Except DecodeError Instr :=
  if t then decodeThumb p (w.setWidth 16) else decodeArm p w

/-- The bytes of a word as they lie in memory, lowest address first (R62, R63). -/
def Code.bytes : Code → List Byte
  | .arm w => [w.extractLsb' 0 8, w.extractLsb' 8 8, w.extractLsb' 16 8, w.extractLsb' 24 8]
  | .thumb h => [h.extractLsb' 0 8, h.extractLsb' 8 8]

/-- Decode from bytes in the state T gives: the instruction and the bytes after it, total on any bytes. -/
def decode (p : Proc) (t : Bool) (bytes : List Byte) : Except DecodeError (Instr × List Byte) :=
  match t, bytes with
  | false, b0 :: b1 :: b2 :: b3 :: rest =>
    (match decodeArm p (b3 ++ b2 ++ b1 ++ b0) with
    | .ok i => .ok (i, rest)
    | .error e => .error e)
  | true, b0 :: b1 :: rest =>
    (match decodeThumb p (b1 ++ b0) with
    | .ok i => .ok (i, rest)
    | .error e => .error e)
  | _, _ => .error .truncated

/-- What the decoder reads from a word numbered as spec/opcode_table.json numbers it: a row of at most 16 bits is a Thumb
halfword, any other an ARM word; on A, the processor that has every row. -/
def decodeTableWord (nbits w : Nat) : Option Instr :=
  let code : Code := if nbits ≤ 16 then .thumb (BitVec.ofNat 16 w) else .arm (BitVec.ofNat 32 w)
  match decode .A (decide (nbits ≤ 16)) code.bytes with
  | .ok (i, _) => some i
  | .error _ => none

/-! ### The encoder -/

/-- A flag as one bit. -/
abbrev bit1 (b : Bool) : BitVec 1 := BitVec.ofBool b

/-- Data processing, immediate form (R96). -/
def encDpImm (op : BitVec 4) (c : Cond) (sf : Bool) (rn rd : Reg) (rot : BitVec 4) (imm8 : BitVec 8) : Code :=
  .arm (c.bits ++ 0b001#3 ++ op ++ bit1 sf ++ rn ++ rd ++ rot ++ imm8)

/-- Data processing, immediate-shift form (R96). -/
def encDpRsi (op : BitVec 4) (c : Cond) (sf : Bool) (rn rd : Reg) (sh : BitVec 5) (ty : ShiftType) (rm : Reg) : Code :=
  .arm (c.bits ++ 0b000#3 ++ op ++ bit1 sf ++ rn ++ rd ++ sh ++ ty.bits ++ 0b0#1 ++ rm)

/-- Data processing, register-shift form (R96). -/
def encDpRsr (op : BitVec 4) (c : Cond) (sf : Bool) (rn rd rs : Reg) (ty : ShiftType) (rm : Reg) : Code :=
  .arm (c.bits ++ 0b000#3 ++ op ++ bit1 sf ++ rn ++ rd ++ rs ++ 0b0#1 ++ ty.bits ++ 0b1#1 ++ rm)

/-- The miscellaneous space: 00010 op 0, four register-sized fields and the low opcode (R98, R100 to R102). -/
def encMisc (c : Cond) (op : BitVec 2) (f3 f2 f1 low f0 : BitVec 4) : Code :=
  .arm (c.bits ++ 0b00010#5 ++ op ++ 0b0#1 ++ f3 ++ f2 ++ f1 ++ low ++ f0)

/-- The low opcode 1yx0 of the signed halfword multiplies (R100). -/
abbrev yxBits (y x : Bool) : BitVec 4 := 0b1#1 ++ bit1 y ++ bit1 x ++ 0b0#1

/-- Multiply and swap (R99, R103): bits 27:20, then Rd, Rn, Rs, 1001, Rm. -/
def encMul (c : Cond) (hi8 : BitVec 8) (f3 f2 f1 rm : BitVec 4) : Code :=
  .arm (c.bits ++ hi8 ++ f3 ++ f2 ++ f1 ++ 0b1001#4 ++ rm)

/-- Halfword, signed and doubleword transfers (R104). -/
def encHalf (c : Cond) (p u w l : Bool) (sh : BitVec 2) (rn rd : Reg) (off : HalfOffset) : Code :=
  match off with
  | .imm v =>
    .arm (c.bits ++ 0b000#3 ++ bit1 p ++ bit1 u ++ 0b1#1 ++ bit1 w ++ bit1 l ++ rn ++ rd ++ v.extractLsb' 4 4 ++ 0b1#1
      ++ sh ++ 0b1#1 ++ v.extractLsb' 0 4)
  | .reg rm =>
    .arm (c.bits ++ 0b000#3 ++ bit1 p ++ bit1 u ++ 0b0#1 ++ bit1 w ++ bit1 l ++ rn ++ rd ++ 0b0000#4 ++ 0b1#1
      ++ sh ++ 0b1#1 ++ rm)

/-- Single transfers, immediate offset (R105). -/
def encTransferImm (c : Cond) (p u b w l : Bool) (rn rd : Reg) (off : BitVec 12) : Code :=
  .arm (c.bits ++ 0b010#3 ++ bit1 p ++ bit1 u ++ bit1 b ++ bit1 w ++ bit1 l ++ rn ++ rd ++ off)

/-- Single transfers, register offset (R105). -/
def encTransferReg (c : Cond) (p u b w l : Bool) (rn rd : Reg) (sh : BitVec 5) (ty : ShiftType) (rm : Reg) : Code :=
  .arm (c.bits ++ 0b011#3 ++ bit1 p ++ bit1 u ++ bit1 b ++ bit1 w ++ bit1 l ++ rn ++ rd ++ sh ++ ty.bits ++ 0b0#1 ++ rm)

/-- Block transfers (R106). -/
def encBlock (c : Cond) (p u s w l : Bool) (rn : Reg) (list : BitVec 16) : Code :=
  .arm (c.bits ++ 0b100#3 ++ bit1 p ++ bit1 u ++ bit1 s ++ bit1 w ++ bit1 l ++ rn ++ list)

/-- MCR and MRC (R109). -/
def encCoprocessorMove (c : Cond) (opc1 : BitVec 3) (l : Bool) (crn rd cp : Reg) (opc2 : BitVec 3) (crm : Reg) : Code :=
  .arm (c.bits ++ 0b1110#4 ++ opc1 ++ bit1 l ++ crn ++ rd ++ cp ++ opc2 ++ 0b1#1 ++ crm)

/-- Thumb F4 (R112). -/
def encThumbAlu (op : BitVec 4) (rs rd : LowReg) : Code := .thumb (0b010000#6 ++ op ++ rs ++ rd)

/-- Thumb F5 (R112): H1 and H2 are the top bits of the two register numbers. -/
def encThumbHigh (op : BitVec 2) (rs rd : Reg) : Code :=
  .thumb (0b010001#6 ++ op ++ rd.extractLsb' 3 1 ++ rs.extractLsb' 3 1 ++ rs.extractLsb' 0 3 ++ rd.extractLsb' 0 3)

/-- The word of an instruction; ignored fields are written as R98 to R102 say (SBO ones, SBZ zeros), others zero. -/
def encode : Instr → Code
  | .andImm c sf rn rd rot imm8 => encDpImm 0x0#4 c sf rn rd rot imm8
  | .andRsi c sf rn rd sh ty rm => encDpRsi 0x0#4 c sf rn rd sh ty rm
  | .andRsr c sf rn rd rs ty rm => encDpRsr 0x0#4 c sf rn rd rs ty rm
  | .eorImm c sf rn rd rot imm8 => encDpImm 0x1#4 c sf rn rd rot imm8
  | .eorRsi c sf rn rd sh ty rm => encDpRsi 0x1#4 c sf rn rd sh ty rm
  | .eorRsr c sf rn rd rs ty rm => encDpRsr 0x1#4 c sf rn rd rs ty rm
  | .subImm c sf rn rd rot imm8 => encDpImm 0x2#4 c sf rn rd rot imm8
  | .subRsi c sf rn rd sh ty rm => encDpRsi 0x2#4 c sf rn rd sh ty rm
  | .subRsr c sf rn rd rs ty rm => encDpRsr 0x2#4 c sf rn rd rs ty rm
  | .rsbImm c sf rn rd rot imm8 => encDpImm 0x3#4 c sf rn rd rot imm8
  | .rsbRsi c sf rn rd sh ty rm => encDpRsi 0x3#4 c sf rn rd sh ty rm
  | .rsbRsr c sf rn rd rs ty rm => encDpRsr 0x3#4 c sf rn rd rs ty rm
  | .addImm c sf rn rd rot imm8 => encDpImm 0x4#4 c sf rn rd rot imm8
  | .addRsi c sf rn rd sh ty rm => encDpRsi 0x4#4 c sf rn rd sh ty rm
  | .addRsr c sf rn rd rs ty rm => encDpRsr 0x4#4 c sf rn rd rs ty rm
  | .adcImm c sf rn rd rot imm8 => encDpImm 0x5#4 c sf rn rd rot imm8
  | .adcRsi c sf rn rd sh ty rm => encDpRsi 0x5#4 c sf rn rd sh ty rm
  | .adcRsr c sf rn rd rs ty rm => encDpRsr 0x5#4 c sf rn rd rs ty rm
  | .sbcImm c sf rn rd rot imm8 => encDpImm 0x6#4 c sf rn rd rot imm8
  | .sbcRsi c sf rn rd sh ty rm => encDpRsi 0x6#4 c sf rn rd sh ty rm
  | .sbcRsr c sf rn rd rs ty rm => encDpRsr 0x6#4 c sf rn rd rs ty rm
  | .rscImm c sf rn rd rot imm8 => encDpImm 0x7#4 c sf rn rd rot imm8
  | .rscRsi c sf rn rd sh ty rm => encDpRsi 0x7#4 c sf rn rd sh ty rm
  | .rscRsr c sf rn rd rs ty rm => encDpRsr 0x7#4 c sf rn rd rs ty rm
  | .tstImm c rn rot imm8 => encDpImm 0x8#4 c true rn 0#4 rot imm8
  | .tstRsi c rn sh ty rm => encDpRsi 0x8#4 c true rn 0#4 sh ty rm
  | .tstRsr c rn rs ty rm => encDpRsr 0x8#4 c true rn 0#4 rs ty rm
  | .teqImm c rn rot imm8 => encDpImm 0x9#4 c true rn 0#4 rot imm8
  | .teqRsi c rn sh ty rm => encDpRsi 0x9#4 c true rn 0#4 sh ty rm
  | .teqRsr c rn rs ty rm => encDpRsr 0x9#4 c true rn 0#4 rs ty rm
  | .cmpImm c rn rot imm8 => encDpImm 0xA#4 c true rn 0#4 rot imm8
  | .cmpRsi c rn sh ty rm => encDpRsi 0xA#4 c true rn 0#4 sh ty rm
  | .cmpRsr c rn rs ty rm => encDpRsr 0xA#4 c true rn 0#4 rs ty rm
  | .cmnImm c rn rot imm8 => encDpImm 0xB#4 c true rn 0#4 rot imm8
  | .cmnRsi c rn sh ty rm => encDpRsi 0xB#4 c true rn 0#4 sh ty rm
  | .cmnRsr c rn rs ty rm => encDpRsr 0xB#4 c true rn 0#4 rs ty rm
  | .orrImm c sf rn rd rot imm8 => encDpImm 0xC#4 c sf rn rd rot imm8
  | .orrRsi c sf rn rd sh ty rm => encDpRsi 0xC#4 c sf rn rd sh ty rm
  | .orrRsr c sf rn rd rs ty rm => encDpRsr 0xC#4 c sf rn rd rs ty rm
  | .movImm c sf rd rot imm8 => encDpImm 0xD#4 c sf 0#4 rd rot imm8
  | .movRsi c sf rd sh ty rm => encDpRsi 0xD#4 c sf 0#4 rd sh ty rm
  | .movRsr c sf rd rs ty rm => encDpRsr 0xD#4 c sf 0#4 rd rs ty rm
  | .bicImm c sf rn rd rot imm8 => encDpImm 0xE#4 c sf rn rd rot imm8
  | .bicRsi c sf rn rd sh ty rm => encDpRsi 0xE#4 c sf rn rd sh ty rm
  | .bicRsr c sf rn rd rs ty rm => encDpRsr 0xE#4 c sf rn rd rs ty rm
  | .mvnImm c sf rd rot imm8 => encDpImm 0xF#4 c sf 0#4 rd rot imm8
  | .mvnRsi c sf rd sh ty rm => encDpRsi 0xF#4 c sf 0#4 rd sh ty rm
  | .mvnRsr c sf rd rs ty rm => encDpRsr 0xF#4 c sf 0#4 rd rs ty rm
  | .mrs c r rd => encMisc c (bit1 r ++ 0b0#1) 0xF#4 rd 0#4 0b0000#4 0#4
  | .msrRegCpsr c mask rm => encMisc c 0b01#2 mask 0xF#4 0#4 0b0000#4 rm
  | .msrRegSpsr c mask rm => encMisc c 0b11#2 mask 0xF#4 0#4 0b0000#4 rm
  | .msrImm c r mask rot imm8 => .arm (c.bits ++ 0b00110#5 ++ bit1 r ++ 0b10#2 ++ mask ++ 0xF#4 ++ rot ++ imm8)
  | .bx c rm => encMisc c 0b01#2 0xF#4 0xF#4 0xF#4 0b0001#4 rm
  | .blxReg c rm => encMisc c 0b01#2 0xF#4 0xF#4 0xF#4 0b0011#4 rm
  | .clz c rd rm => encMisc c 0b11#2 0xF#4 rd 0xF#4 0b0001#4 rm
  | .qadd c rn rd rm => encMisc c 0b00#2 rn rd 0#4 0b0101#4 rm
  | .qsub c rn rd rm => encMisc c 0b01#2 rn rd 0#4 0b0101#4 rm
  | .qdadd c rn rd rm => encMisc c 0b10#2 rn rd 0#4 0b0101#4 rm
  | .qdsub c rn rd rm => encMisc c 0b11#2 rn rd 0#4 0b0101#4 rm
  | .bkpt c imm12 imm4 => .arm (c.bits ++ 0b00010010#8 ++ imm12 ++ 0b0111#4 ++ imm4)
  | .smlaXy c rd rn rs y x rm => encMisc c 0b00#2 rd rn rs (yxBits y x) rm
  | .smlawY c rd rn rs y rm => encMisc c 0b01#2 rd rn rs (yxBits y false) rm
  | .smulwY c rd rs y rm => encMisc c 0b01#2 rd 0#4 rs (yxBits y true) rm
  | .smlalXy c rdHi rdLo rs y x rm => encMisc c 0b10#2 rdHi rdLo rs (yxBits y x) rm
  | .smulXy c rd rs y x rm => encMisc c 0b11#2 rd 0#4 rs (yxBits y x) rm
  | .mul c sf rd rs rm => encMul c (0b0000000#7 ++ bit1 sf) rd 0#4 rs rm
  | .mla c sf rd rn rs rm => encMul c (0b0000001#7 ++ bit1 sf) rd rn rs rm
  | .umull c sf rdHi rdLo rs rm => encMul c (0b0000100#7 ++ bit1 sf) rdHi rdLo rs rm
  | .umlal c sf rdHi rdLo rs rm => encMul c (0b0000101#7 ++ bit1 sf) rdHi rdLo rs rm
  | .smull c sf rdHi rdLo rs rm => encMul c (0b0000110#7 ++ bit1 sf) rdHi rdLo rs rm
  | .smlal c sf rdHi rdLo rs rm => encMul c (0b0000111#7 ++ bit1 sf) rdHi rdLo rs rm
  | .swp c rn rd rm => encMul c 0b00010000#8 rn rd 0#4 rm
  | .swpb c rn rd rm => encMul c 0b00010100#8 rn rd 0#4 rm
  | .ldrh c p u w rn rd off => encHalf c p u w true 0b01#2 rn rd off
  | .strh c p u w rn rd off => encHalf c p u w false 0b01#2 rn rd off
  | .ldrsb c p u w rn rd off => encHalf c p u w true 0b10#2 rn rd off
  | .ldrsh c p u w rn rd off => encHalf c p u w true 0b11#2 rn rd off
  | .ldrd c p u w rn rd off => encHalf c p u w false 0b10#2 rn rd off
  | .strd c p u w rn rd off => encHalf c p u w false 0b11#2 rn rd off
  | .ldrImm c p u w rn rd off12 => encTransferImm c p u false w true rn rd off12
  | .strImm c p u w rn rd off12 => encTransferImm c p u false w false rn rd off12
  | .ldrbImm c p u w rn rd off12 => encTransferImm c p u true w true rn rd off12
  | .strbImm c p u w rn rd off12 => encTransferImm c p u true w false rn rd off12
  | .ldrtImm c u rn rd off12 => encTransferImm c false u false true true rn rd off12
  | .strtImm c u rn rd off12 => encTransferImm c false u false true false rn rd off12
  | .ldrbtImm c u rn rd off12 => encTransferImm c false u true true true rn rd off12
  | .strbtImm c u rn rd off12 => encTransferImm c false u true true false rn rd off12
  | .ldrReg c p u w rn rd sh ty rm => encTransferReg c p u false w true rn rd sh ty rm
  | .strReg c p u w rn rd sh ty rm => encTransferReg c p u false w false rn rd sh ty rm
  | .ldrbReg c p u w rn rd sh ty rm => encTransferReg c p u true w true rn rd sh ty rm
  | .strbReg c p u w rn rd sh ty rm => encTransferReg c p u true w false rn rd sh ty rm
  | .ldrtReg c u rn rd sh ty rm => encTransferReg c false u false true true rn rd sh ty rm
  | .strtReg c u rn rd sh ty rm => encTransferReg c false u false true false rn rd sh ty rm
  | .ldrbtReg c u rn rd sh ty rm => encTransferReg c false u true true true rn rd sh ty rm
  | .strbtReg c u rn rd sh ty rm => encTransferReg c false u true true false rn rd sh ty rm
  | .ldm c p u w rn list => encBlock c p u false w true rn list
  | .ldmS c p u w rn list => encBlock c p u true w true rn list
  | .stm c p u w rn list => encBlock c p u false w false rn list
  | .stmS c p u w rn list => encBlock c p u true w false rn list
  | .b c off24 => .arm (c.bits ++ 0b1010#4 ++ off24)
  | .bl c off24 => .arm (c.bits ++ 0b1011#4 ++ off24)
  | .blxImm h off24 => .arm (0b1111101#7 ++ bit1 h ++ off24)
  | .pld i u rn off12 => .arm (0b111101#6 ++ bit1 i ++ 0b1#1 ++ bit1 u ++ 0b101#3 ++ rn ++ 0xF#4 ++ off12)
  | .swi c comment24 => .arm (c.bits ++ 0b1111#4 ++ comment24)
  | .mcr c opc1 crn rd cp opc2 crm => encCoprocessorMove c opc1 false crn rd cp opc2 crm
  | .mrc c opc1 crn rd cp opc2 crm => encCoprocessorMove c opc1 true crn rd cp opc2 crm
  | .cdp c opc1 crn crd cp opc2 crm => .arm (c.bits ++ 0b1110#4 ++ opc1 ++ crn ++ crd ++ cp ++ opc2 ++ 0b0#1 ++ crm)
  | .mcrrMrrc c l rn rd cp opc crm => .arm (c.bits ++ 0b1100010#7 ++ bit1 l ++ rn ++ rd ++ cp ++ opc ++ crm)
  | .ldcStc c p u n w l rn crd cp off8 => .arm (c.bits ++ 0b110#3 ++ bit1 p ++ bit1 u ++ bit1 n ++ bit1 w ++ bit1 l ++ rn ++ crd ++ cp ++ off8)
  | .tLslImm off5 rs rd => .thumb (0b00000#5 ++ off5 ++ rs ++ rd)
  | .tLsrImm off5 rs rd => .thumb (0b00001#5 ++ off5 ++ rs ++ rd)
  | .tAsrImm off5 rs rd => .thumb (0b00010#5 ++ off5 ++ rs ++ rd)
  | .tAddReg rn rs rd => .thumb (0b0001100#7 ++ rn ++ rs ++ rd)
  | .tSubReg rn rs rd => .thumb (0b0001101#7 ++ rn ++ rs ++ rd)
  | .tAddImm3 off3 rs rd => .thumb (0b0001110#7 ++ off3 ++ rs ++ rd)
  | .tSubImm3 off3 rs rd => .thumb (0b0001111#7 ++ off3 ++ rs ++ rd)
  | .tMovImm rd off8 => .thumb (0b00100#5 ++ rd ++ off8)
  | .tCmpImm rd off8 => .thumb (0b00101#5 ++ rd ++ off8)
  | .tAddImm8 rd off8 => .thumb (0b00110#5 ++ rd ++ off8)
  | .tSubImm8 rd off8 => .thumb (0b00111#5 ++ rd ++ off8)
  | .tAnd rs rd => encThumbAlu 0x0#4 rs rd
  | .tEor rs rd => encThumbAlu 0x1#4 rs rd
  | .tLslReg rs rd => encThumbAlu 0x2#4 rs rd
  | .tLsrReg rs rd => encThumbAlu 0x3#4 rs rd
  | .tAsrReg rs rd => encThumbAlu 0x4#4 rs rd
  | .tAdc rs rd => encThumbAlu 0x5#4 rs rd
  | .tSbc rs rd => encThumbAlu 0x6#4 rs rd
  | .tRor rs rd => encThumbAlu 0x7#4 rs rd
  | .tTst rs rd => encThumbAlu 0x8#4 rs rd
  | .tNeg rs rd => encThumbAlu 0x9#4 rs rd
  | .tCmpReg rs rd => encThumbAlu 0xA#4 rs rd
  | .tCmn rs rd => encThumbAlu 0xB#4 rs rd
  | .tOrr rs rd => encThumbAlu 0xC#4 rs rd
  | .tMul rs rd => encThumbAlu 0xD#4 rs rd
  | .tBic rs rd => encThumbAlu 0xE#4 rs rd
  | .tMvn rs rd => encThumbAlu 0xF#4 rs rd
  | .tAddHi rs rd => encThumbHigh 0b00#2 rs rd
  | .tCmpHi rs rd => encThumbHigh 0b01#2 rs rd
  | .tMovHi rs rd => encThumbHigh 0b10#2 rs rd
  | .tBx rs => encThumbHigh 0b11#2 rs 0#4
  | .tBlxReg rs => encThumbHigh 0b11#2 rs 0b1000#4
  | .tLdrPc rd word8 => .thumb (0b01001#5 ++ rd ++ word8)
  | .tStrReg ro rb rd => .thumb (0b0101000#7 ++ ro ++ rb ++ rd)
  | .tStrbReg ro rb rd => .thumb (0b0101010#7 ++ ro ++ rb ++ rd)
  | .tLdrReg ro rb rd => .thumb (0b0101100#7 ++ ro ++ rb ++ rd)
  | .tLdrbReg ro rb rd => .thumb (0b0101110#7 ++ ro ++ rb ++ rd)
  | .tStrhReg ro rb rd => .thumb (0b0101001#7 ++ ro ++ rb ++ rd)
  | .tLdrhReg ro rb rd => .thumb (0b0101101#7 ++ ro ++ rb ++ rd)
  | .tLdsbReg ro rb rd => .thumb (0b0101011#7 ++ ro ++ rb ++ rd)
  | .tLdshReg ro rb rd => .thumb (0b0101111#7 ++ ro ++ rb ++ rd)
  | .tStrImm off5 rb rd => .thumb (0b01100#5 ++ off5 ++ rb ++ rd)
  | .tLdrImm off5 rb rd => .thumb (0b01101#5 ++ off5 ++ rb ++ rd)
  | .tStrbImm off5 rb rd => .thumb (0b01110#5 ++ off5 ++ rb ++ rd)
  | .tLdrbImm off5 rb rd => .thumb (0b01111#5 ++ off5 ++ rb ++ rd)
  | .tStrhImm off5 rb rd => .thumb (0b10000#5 ++ off5 ++ rb ++ rd)
  | .tLdrhImm off5 rb rd => .thumb (0b10001#5 ++ off5 ++ rb ++ rd)
  | .tStrSp rd word8 => .thumb (0b10010#5 ++ rd ++ word8)
  | .tLdrSp rd word8 => .thumb (0b10011#5 ++ rd ++ word8)
  | .tAddPc rd word8 => .thumb (0b10100#5 ++ rd ++ word8)
  | .tAddSp rd word8 => .thumb (0b10101#5 ++ rd ++ word8)
  | .tAddSpImm minus sword7 => .thumb (0b10110000#8 ++ bit1 minus ++ sword7)
  | .tPush r rlist => .thumb (0b1011010#7 ++ bit1 r ++ rlist)
  | .tPop r rlist => .thumb (0b1011110#7 ++ bit1 r ++ rlist)
  | .tBkpt imm8 => .thumb (0b10111110#8 ++ imm8)
  | .tStmia rb rlist => .thumb (0b11000#5 ++ rb ++ rlist)
  | .tLdmia rb rlist => .thumb (0b11001#5 ++ rb ++ rlist)
  | .tBcond c soff8 => .thumb (0b1101#4 ++ c.bits ++ soff8)
  | .tSwi value8 => .thumb (0b11011111#8 ++ value8)
  | .tB off11 => .thumb (0b11100#5 ++ off11)
  | .tBlxSuffix off11 => .thumb (0b11101#5 ++ off11)
  | .tBlPrefix off11 => .thumb (0b11110#5 ++ off11)
  | .tBlSuffix off11 => .thumb (0b11111#5 ++ off11)

end Sys2Proof
end

