-- ==== Sys2Proof/Machine/State.lean ====
section
/-! DEFINITION. The state of the CORE as plain data: two processors with their banked registers and status words
(10_state.md), their interrupt units, the shared scheduler with its event queue, the waitstate tables, memory and the maps
through which the processors see it, and what passes between the CORE and its collaborators (R9, R60). INVENTORY.md lists
every field with its rule and reset value. -/

namespace Sys2Proof.Machine

/-! ### Status words -/

/-- The seven modes (R23). -/
inductive Mode where
  | usr | fiq | irq | svc | abt | und | sys
deriving DecidableEq, Repr, Inhabited

/-- The 5-bit number of a mode (R23). -/
def Mode.bits : Mode → BitVec 5
  | .usr => 0b10000#5
  | .fiq => 0b10001#5
  | .irq => 0b10010#5
  | .svc => 0b10011#5
  | .abt => 0b10111#5
  | .und => 0b11011#5
  | .sys => 0b11111#5

/-- A status word, CPSR or SPSR, by its fields (R34, R38). The bits 26:8 read as 0 and ignore writes (R35), so no field
holds them. M is the five bits as they are: an SPSR may hold a number that is no mode (R269). -/
structure Psr where
  n : Bool
  z : Bool
  c : Bool
  v : Bool
  q : Bool
  i : Bool
  f : Bool
  t : Bool
  m : BitVec 5
deriving DecidableEq, Repr, Inhabited

/-- The saved-status words: one for each mode that has one, none for USR and SYS (R38, R39). -/
structure SpsrBank where
  fiq : Psr
  irq : Psr
  svc : Psr
  abt : Psr
  und : Psr
deriving DecidableEq, Repr, Inhabited

/-! ### A processor -/

/-- Widths of bus accesses (R71). -/
inductive Width where
  | byte | half | word
deriving DecidableEq, Repr, Inhabited

/-- The previous bus access of a processor (R50). -/
structure BusAccess where
  addr : Word
  width : Width
deriving DecidableEq, Repr, Inhabited

/-- ProcessorState (R20, R21). -/
structure ProcState where
  /-- The physical register file (R22): 0 to 15 the user bank, 16 to 22 R8_fiq to R14_fiq, then R13 and R14 of IRQ, SVC,
  ABT and UND. Place 15 is the user bank's R15, which is not stored there (R22): nothing reads it. -/
  phys : Vector Word 31
  /-- The current status word (R34). -/
  cpsr : Psr
  /-- The five saved-status words (R38). -/
  spsr : SpsrBank
  /-- The address of the instruction to execute (R30). -/
  pc : Word
  /-- The cycle timestamp (R42). A u64 that never wraps in a run (D51), hence a Nat: log entry 6. -/
  ts : Nat
  /-- The processor is in its low-power wait (R43). -/
  halted : Bool
  /-- The sequential-access tracker (R50, R76). -/
  lastbus : Option BusAccess
deriving DecidableEq, Repr

/-- The interrupt unit of a processor: IME, IE and IF (R49, R386). -/
structure IrqUnit where
  ime : Bool
  enable : Word
  pending : Word
deriving DecidableEq, Repr, Inhabited

/-! ### Waitstates -/

/-- The four timing classes of one 16 MB region (R48, R75). Every entry is at least one cycle (D34). -/
structure WaitRow where
  n32 : Cycles
  s32 : Cycles
  n16 : Cycles
  s16 : Cycles
deriving DecidableEq, Repr, Inhabited

/-- Which of the four classes (R75). -/
inductive WaitClass where
  | n32 | s32 | n16 | s16
deriving DecidableEq, Repr, Inhabited

/-- One processor's half of the WaitstateTable: 16 regions (R48). -/
abbrev WaitTable := Vector WaitRow 16

/-! ### Memory and the bus -/

/-- The bytes of memory, in one canonical form (Memory.wf, Machine/Memory.lean): cell numbers strictly rising, no entry
equal to what an unlisted cell reads as. -/
abbrev Memory := List Host.Cell

/-- A stretch of one processor's address space as its bus shows it: backed by memory cells from cell on, or, with none, by
a peripheral register or nothing at all, whose answers are the bus collaborator's (R61, R64, R73). -/
structure Region where
  base : Nat
  size : Nat
  cell : Option Nat
deriving DecidableEq, Repr, Inhabited

/-- What a collaborator may do while it answers the CORE or handles an event (R78, R84, R386, R391, R404; the interrupt
registers R49 and the memory map R73 are the collaborators' own). -/
inductive Call where
  /-- request_interrupt(p, id) (R386). -/
  | requestInterrupt (p : Proc) (id : Nat)
  /-- Write IME, IE or IF of p through the interrupt controller (R386). -/
  | setIme (p : Proc) (v : Bool)
  | setEnable (p : Proc) (v : Word)
  | setPending (p : Proc) (v : Word)
  /-- schedule(id, activation) (R404). -/
  | schedule (id activation : Nat)
  /-- set_waitstate(p, region, class, cycles) (R78). -/
  | setWaitstate (p : Proc) (region : BitVec 4) (cls : WaitClass) (cycles : Cycles)
  /-- Change what p's bus shows where (R73, R74). -/
  | remap (p : Proc) (regions : List Region)
  /-- A peripheral or DMA write of one memory cell (R84), or a host BIOS handler's (R410). -/
  | writeCell (cell : Nat) (v : Byte)
  /-- halt(p) for the processor whose store is being answered (R391). -/
  | halt
deriving DecidableEq, Repr

/-- When a collaborator makes its calls: while it answers a bus read or a bus write, a coprocessor move or a BIOS call, or as the
handler of an event (R78, R84, R391, R404, R410). -/
inductive CallSource where
  | read | write | coprocessor | bios | event
deriving DecidableEq, Repr, Inhabited

/-- What a host BIOS handler may do to the processor beside the calls (R410, D37; log entry 13): write a register of any
mode's bank, the flags, masks and mode of CPSR, an SPSR; halt it; charge its own cycles. -/
inductive HostWrite where
  | setReg (m : Mode) (i : Reg) (v : Word)
  /-- CPSR becomes v with the mode m; T is not the handler's to write (R40). -/
  | setCpsr (v : Psr) (m : Mode)
  | setSpsr (m : Mode) (v : Psr)
  | setHalted
  | charge (n : Nat)
deriving DecidableEq, Repr

/-- A collaborator's answer: a value, where one is asked for, the calls it makes, and what a BIOS handler does. -/
structure Reply where
  value : Word
  calls : List Call
  host : List HostWrite
deriving DecidableEq, Repr, Inhabited

/-- What the CORE puts to a collaborator: a bus access outside memory (R60), a coprocessor move (R275), a handled BIOS call
(R410), a due event (R404). -/
inductive Request where
  | busRead (p : Proc) (addr : Word) (width : Width)
  | busWrite (p : Proc) (addr : Word) (width : Width) (v : Word)
  | moveFrom (op : BitVec 3) (srcReg : Reg) (info : BitVec 3) (operandReg : Reg)
  | moveTo (op : BitVec 3) (destReg : Reg) (v : Word) (info : BitVec 3) (operandReg : Reg)
  | bios (p : Proc) (n : BitVec 8)
  | event (id : Nat)
deriving DecidableEq, Repr

/-- The collaborators' answer where State.inbox holds none: a free value (R64, R72, R276; log entry 8). No body: nothing
can be proved of what it is. -/
opaque freeReply : Nat → Reply

/-! ### The scheduler -/

/-- A SchedulerEvent (R404): its id, its activation time in system ticks, and its order of creation. -/
structure Event where
  id : Nat
  activation : Nat
  seq : Nat
deriving DecidableEq, Repr, Inhabited

/-- Where the scheduler stands in its iteration (R401): about to look at the first processor of a catch-up round, about to
look at the second, or dispatching events, those created before mark first (R405). -/
inductive Phase where
  | roundFirst
  | roundSecond
  | dispatch (mark : Nat)
deriving DecidableEq, Repr, Inhabited

/-! ### The whole -/

/-- The state of the CORE. -/
structure State where
  /-- The implementation parameters (R12); no step changes them. -/
  cfg : Config
  /-- The two ProcessorStates (R20). -/
  cpus : Pair ProcState
  /-- The two interrupt units (R49). -/
  irqs : Pair IrqUnit
  /-- The WaitstateTable (R48). -/
  waits : Pair WaitTable
  /-- What each processor's bus shows where (R61, R73); the first region that holds an address counts, an address in no
  region is a collaborator's. -/
  maps : Pair (List Region)
  /-- Memory, by cell. -/
  mem : Memory
  /-- system_ts (R47). -/
  systemTs : Nat
  /-- The event queue (R47, R404). -/
  events : List Event
  /-- The next event's order of creation (R404). The first event after reset gets 0: DESIGN CHOICE (log entry 34). -/
  nextSeq : Nat
  /-- Where the scheduler stands (R401). -/
  phase : Phase
  /-- The processor whose step this is (R401): the model's own field, set by step before an instruction runs. -/
  cur : Proc
  /-- The raw word being executed, zero-extended in Thumb state (R395): the model's own field, set by the fetch. -/
  ir : Word
  /-- The collaborators' answers to come, oldest first: the model's own field, the input of the outside world. -/
  inbox : List Reply
  /-- What the CORE has put to its collaborators, newest first: the model's own field. -/
  outbox : List Request
  /-- How many free values have been drawn: the model's own field. -/
  draws : Nat
deriving DecidableEq, Repr

/-- Why a step stops. Both are the spec's Fatal outcome (R395, R396), with the raw instruction word and its address. -/
inductive Fault where
  /-- Fatal(Unsupported): an UNDEF word (R125), an encoding this core does not implement (R126), an operand the spec
  refuses (the Exceptions lines of files 41 to 46). Raised by step for a word its decoder rejects and by the meanings.
  Safe: the machine stops, as the spec says the run does. -/
  | unsupported (word : Word) (addr : Word)
  /-- Fatal(InvalidState): an invalid mode number or an SPSR access in USR or SYS (R39). Raised by the meanings of MRS,
  MSR, the status-restore-and-jumps and LDM. Safe: the machine stops, as the spec says the run does. -/
  | invalidState (word : Word) (addr : Word)
deriving DecidableEq, Repr

/-- Why the model gives no meaning. -/
inductive Refusal where
  /-- The instruction has no meaning yet; raised by exec's arm alone, never by a meaning. Safe. No arm raises it now. -/
  | notModelled (mnemonic : String)
deriving DecidableEq, Repr

/-! ### Reset -/

/-- CPSR after reset: 0x000000D3, SVC with I and F set, ARM state (R420). -/
def Psr.reset : Psr where
  n := false
  z := false
  c := false
  v := false
  q := false
  i := true
  f := true
  t := false
  m := Mode.svc.bits

/-- A saved-status word of zero (R420, D13). -/
def Psr.zero : Psr where
  n := false
  z := false
  c := false
  v := false
  q := false
  i := false
  f := false
  t := false
  m := 0#5

/-- ProcessorState after reset (R420, R421). -/
def ProcState.reset (p : Proc) : ProcState where
  phys := Vector.replicate 31 0#32
  cpsr := Psr.reset
  spsr := ⟨Psr.zero, Psr.zero, Psr.zero, Psr.zero, Psr.zero⟩
  pc := Config.excBase p
  ts := 0
  halted := false
  lastbus := none

/-- One cycle for every access: the initial waitstate table, which the spec leaves OPEN (R420). DESIGN CHOICE (log entry
4), unsafe for a claim about the reset state alone. -/
def WaitTable.ones : WaitTable := Vector.replicate 16 ⟨⟨0⟩, ⟨0⟩, ⟨0⟩, ⟨0⟩⟩

/-- A bus that shows memory at every address, from the given cell on. -/
def Region.everywhere (cell : Nat) : List Region := [⟨0, 4294967296, some cell⟩]

/-- The machine right after reset (R420, R421). What each bus shows is the collaborators' (R73): here every address of
both spaces is memory, the two spaces apart. DESIGN CHOICE (log entry 5), unsafe for a claim about the reset state
alone. What the collaborators schedule at their own reset is theirs (R420): here they schedule nothing. DESIGN CHOICE
(log entry 37), unsafe for a claim about the reset state alone. -/
def State.reset : State where
  cfg := Config.standard
  cpus := ⟨ProcState.reset .A, ProcState.reset .B⟩
  irqs := ⟨⟨false, 0#32, 0#32⟩, ⟨false, 0#32, 0#32⟩⟩
  waits := ⟨WaitTable.ones, WaitTable.ones⟩
  maps := ⟨Region.everywhere 0, Region.everywhere 4294967296⟩
  mem := []
  systemTs := 0
  events := []
  nextSeq := 0
  phase := .roundFirst
  cur := .A
  ir := 0#32
  inbox := []
  outbox := []
  draws := 0

end Sys2Proof.Machine
end

