-- ==== Sys2Proof/Machine/Flags.lean ====
section
/-! DEFINITION. Conditions (R130), status words as words (R34, R35), and the flag engine of 40_shifter_alu.md R140 to R146:
pure functions of operands and flags. -/

namespace Sys2Proof.Machine

/-! ### Conditions -/

/-- ConditionPassed (R130). -/
def condPassed (c : Cond) (s : Psr) : Bool :=
  match c with
  | .eq => s.z
  | .ne => !s.z
  | .cs => s.c
  | .cc => !s.c
  | .mi => s.n
  | .pl => !s.n
  | .vs => s.v
  | .vc => !s.v
  | .hi => s.c && !s.z
  | .ls => !s.c || s.z
  | .ge => s.n == s.v
  | .lt => s.n != s.v
  | .gt => !s.z && (s.n == s.v)
  | .le => s.z || (s.n != s.v)
  | .al => true

/-! ### Status words -/

/-- A status word as software reads it: reserved bits 26:8 zero (R34, R35). -/
def Psr.toWord (s : Psr) : Word :=
  BitVec.ofBool s.n ++ BitVec.ofBool s.z ++ BitVec.ofBool s.c ++ BitVec.ofBool s.v ++ BitVec.ofBool s.q ++ 0#19
    ++ BitVec.ofBool s.i ++ BitVec.ofBool s.f ++ BitVec.ofBool s.t ++ s.m

/-- What a status word keeps of a word written to it: reserved bits are ignored (R35). -/
def Psr.ofWord (w : Word) : Psr where
  n := w.getLsbD 31
  z := w.getLsbD 30
  c := w.getLsbD 29
  v := w.getLsbD 28
  q := w.getLsbD 27
  i := w.getLsbD 7
  f := w.getLsbD 6
  t := w.getLsbD 5
  m := w.extractLsb' 0 5

/-- The mode numbers of R23. -/
def modeValid (m : BitVec 5) : Bool :=
  m == Mode.usr.bits || m == Mode.fiq.bits || m == Mode.irq.bits || m == Mode.svc.bits || m == Mode.abt.bits
    || m == Mode.und.bits || m == Mode.sys.bits

/-- The mode has a saved-status word: every mode but USR and SYS (R38, R39). -/
def modeHasSpsr (m : BitVec 5) : Bool :=
  m == Mode.fiq.bits || m == Mode.irq.bits || m == Mode.svc.bits || m == Mode.abt.bits || m == Mode.und.bits

/-- The saved-status word of a mode, if it has one (R38). -/
def SpsrBank.get? (b : SpsrBank) (m : BitVec 5) : Option Psr :=
  if m = Mode.fiq.bits then some b.fiq
  else if m = Mode.irq.bits then some b.irq
  else if m = Mode.svc.bits then some b.svc
  else if m = Mode.abt.bits then some b.abt
  else if m = Mode.und.bits then some b.und
  else none

/-- Write the saved-status word of a mode; a mode without one has nothing to write (R38). -/
def SpsrBank.put (b : SpsrBank) (m : BitVec 5) (v : Psr) : SpsrBank :=
  if m = Mode.fiq.bits then { b with fiq := v }
  else if m = Mode.irq.bits then { b with irq := v }
  else if m = Mode.svc.bits then { b with svc := v }
  else if m = Mode.abt.bits then { b with abt := v }
  else if m = Mode.und.bits then { b with und := v }
  else b

/-- The bytes an MSR field mask selects, intersected with the writable bits 0xF80000FF (R35, R267). Q is one of the bits of
the flags field, so an MSR that selects the field writes it. DEDUCED (log entry 35): the example of R270 says that Q is left,
against the mask of R268 and against R37. -/
def msrByteMask (mask : BitVec 4) : Word :=
  ((if mask.getLsbD 3 then 0xFF000000#32 else 0#32) ||| (if mask.getLsbD 2 then 0x00FF0000#32 else 0#32)
    ||| (if mask.getLsbD 1 then 0x0000FF00#32 else 0#32) ||| (if mask.getLsbD 0 then 0x000000FF#32 else 0#32))
    &&& 0xF80000FF#32

/-- A status word with the bits of mask taken from v (R268, R269). -/
def Psr.masked (s : Psr) (mask v : Word) : Psr := Psr.ofWord ((s.toWord &&& ~~~mask) ||| (v &&& mask))

/-! ### The flag engine -/

/-- N, Z, C and V. -/
structure Flags where
  n : Bool
  z : Bool
  c : Bool
  v : Bool
deriving DecidableEq, Repr, Inhabited

/-- The four flags of a status word. -/
def Psr.flags (s : Psr) : Flags := ⟨s.n, s.z, s.c, s.v⟩

/-- A status word with these four flags, everything else as it is. -/
def Psr.withFlags (s : Psr) (f : Flags) : Psr := { s with n := f.n, z := f.z, c := f.c, v := f.v }

/-- A result with its carry and overflow. -/
structure Sum where
  r : Word
  c : Bool
  v : Bool
deriving DecidableEq, Repr, Inhabited

/-- AddWithCarry (R140): the sum in 64 bits; C is its bit 32. -/
def addWithCarry (x y : Word) (cin : Bool) : Sum :=
  let sum64 : BitVec 64 := x.setWidth 64 + y.setWidth 64 + (BitVec.ofBool cin).setWidth 64
  let r : Word := sum64.extractLsb' 0 32
  { r := r, c := sum64.getLsbD 32, v := x.msb == y.msb && r.msb != x.msb }

/-- Subtraction a - b (R142): C is no borrow; V from the signs of both operands and of the result. -/
def subtract (a b : Word) : Sum :=
  let r := a - b
  { r := r, c := decide (b.toNat ≤ a.toNat), v := a.msb != b.msb && r.msb != a.msb }

/-- Subtraction with carry a - b - (1 - cin) (R143). -/
def subtractWithCarry (a b : Word) (cin : Bool) : Sum :=
  let borrow : Nat := if cin then 0 else 1
  let r := a - b - BitVec.ofNat 32 borrow
  { r := r, c := decide (b.toNat + borrow ≤ a.toNat), v := a.msb != b.msb && r.msb != a.msb }

/-- N and Z of a result, with the C and V given (R144, R145). -/
def resultFlags (r : Word) (c v : Bool) : Flags := ⟨r.msb, r == 0#32, c, v⟩

/-- N and Z of a 64-bit result, with the C and V given (R194). -/
def longResultFlags (r : BitVec 64) (c v : Bool) : Flags := ⟨r.msb, r == 0#64, c, v⟩

/-- The flags of an arithmetic result (R145). -/
def Sum.flags (x : Sum) : Flags := resultFlags x.r x.c x.v

/-- A value and whether it was saturated, or fell outside 32 signed bits. -/
structure Saturated where
  r : Word
  sat : Bool
deriving DecidableEq, Repr, Inhabited

/-- SignedSat32 (R146). -/
def signedSat32 (x : Int) : Saturated :=
  if x > 2147483647 then ⟨0x7FFFFFFF#32, true⟩
  else if x < -2147483648 then ⟨0x80000000#32, true⟩
  else ⟨BitVec.ofInt 32 x, false⟩

/-- An integer modulo 2^32, and whether it fell outside 32 signed bits (R198, R199). -/
def wrapSigned32 (x : Int) : Saturated :=
  ⟨BitVec.ofInt 32 x, decide (x > 2147483647) || decide (x < -2147483648)⟩

/-! ### The sixteen data-processing opcodes -/

/-- The opcodes of R96. -/
inductive AluOp where
  | and | eor | sub | rsb | add | adc | sbc | rsc | tst | teq | cmp | cmn | orr | mov | bic | mvn
deriving DecidableEq, Repr, Inhabited

/-- A result and the flags the opcode gives it. -/
structure AluResult where
  r : Word
  flags : Flags
deriving DecidableEq, Repr, Inhabited

/-- A logical result: C is the shifter carry, V unchanged (R144). -/
def logical (r : Word) (carry : Bool) (old : Flags) : AluResult := ⟨r, resultFlags r carry old.v⟩

/-- An arithmetic result with its flags (R145). -/
def arithmetic (x : Sum) : AluResult := ⟨x.r, x.flags⟩

/-- The opcodes R165 to R180 on first operand a, shifter operand op2 with shifter carry, and the flags before. -/
def alu (op : AluOp) (a op2 : Word) (carry : Bool) (old : Flags) : AluResult :=
  match op with
  | .and => logical (a &&& op2) carry old
  | .eor => logical (a ^^^ op2) carry old
  | .sub => arithmetic (subtract a op2)
  | .rsb => arithmetic (subtract op2 a)
  | .add => arithmetic (addWithCarry a op2 false)
  | .adc => arithmetic (addWithCarry a op2 old.c)
  | .sbc => arithmetic (subtractWithCarry a op2 old.c)
  | .rsc => arithmetic (subtractWithCarry op2 a old.c)
  | .tst => logical (a &&& op2) carry old
  | .teq => logical (a ^^^ op2) carry old
  | .cmp => arithmetic (subtract a op2)
  | .cmn => arithmetic (addWithCarry a op2 false)
  | .orr => logical (a ||| op2) carry old
  | .mov => logical op2 carry old
  | .bic => logical (a &&& ~~~op2) carry old
  | .mvn => logical (~~~op2) carry old

end Sys2Proof.Machine
end

