-- ==== Sys2Proof/Machine/Memory.lean ====
section
/-! DEFINITION. Memory as a canonical list of cells, the bytes of wider accesses (little-endian, R62, R63), and which
cells an address of a processor is backed by (R61, R73). -/

namespace Sys2Proof.Machine

/-- What a cell that nothing has written reads as. DESIGN CHOICE (log entry 7): the spec says nothing of RAM after
power-on; unsafe for a claim about the reset state alone, since any contents can be listed. -/
def Memory.unlisted : Byte := 0#8

/-- One byte. -/
def Memory.get : Memory → Nat → Byte
  | [], _ => Memory.unlisted
  | (k, v) :: rest, a => if k = a then v else Memory.get rest a

/-- The list without an entry for cell a, and with (a, v) in its place unless v is what an unlisted cell reads as. -/
def Memory.set : Memory → Nat → Byte → Memory
  | [], a, v => if v = Memory.unlisted then [] else [(a, v)]
  | (k, x) :: rest, a, v =>
    if k < a then (k, x) :: Memory.set rest a v
    else if k = a then (if v = Memory.unlisted then rest else (a, v) :: rest)
    else (if v = Memory.unlisted then (k, x) :: rest else (a, v) :: (k, x) :: rest)

/-- The canonical form: cells strictly rising, none equal to what an unlisted cell reads as. -/
abbrev Memory.wf (m : Memory) : Prop :=
  m.Pairwise (fun x y => x.1 < y.1) ∧ ∀ x ∈ m, x.2 ≠ Memory.unlisted

/-- How many bytes an access moves (R60). -/
def Width.size : Width → Nat
  | .byte => 1
  | .half => 2
  | .word => 4

/-- The low bytes of v that an access of this width moves (R15, R60), zero-extended. -/
def Width.clip (w : Width) (v : Word) : Word :=
  match w with
  | .byte => (v.setWidth 8).setWidth 32
  | .half => (v.setWidth 16).setWidth 32
  | .word => v

/-- Bytes, lowest address first, as a number (R63). -/
def littleEndian : List Byte → Nat
  | [] => 0
  | b :: rest => b.toNat + 256 * littleEndian rest

/-- The low n bytes of v, lowest address first (R63). -/
def bytesOf (v : Word) : Nat → List Byte
  | 0 => []
  | n + 1 => v.setWidth 8 :: bytesOf (v >>> 8) n

/-- The bytes of some cells as a word, zero-extended (R15, R63). -/
def Memory.readCells (m : Memory) (cells : List Nat) : Word := BitVec.ofNat 32 (littleEndian (cells.map m.get))

/-- Write bytes to cells, one to one. -/
def Memory.writeCells (m : Memory) : List Nat → List Byte → Memory
  | c :: cs, b :: bs => (m.set c b).writeCells cs bs
  | _, _ => m

/-- The cell behind address a in a map: the first region that holds a decides. -/
def cellIn : List Region → Nat → Option Nat
  | [], _ => none
  | r :: rest, a =>
    if r.base ≤ a ∧ a < r.base + r.size then r.cell.map (fun c => c + (a - r.base)) else cellIn rest a

/-- The cells behind n bytes from address a on; none unless memory is behind every one of them. -/
def cellsIn (map : List Region) (a : Nat) : Nat → Option (List Nat)
  | 0 => some []
  | n + 1 =>
    match cellIn map a, cellsIn map (a + 1) n with
    | some c, some cs => some (c :: cs)
    | _, _ => none

end Sys2Proof.Machine
end

