-- ==== Sys2Proof/Machine/Ops.lean ====
section
/-! DEFINITION. The named operations every meaning is built from: the running processor, its banked registers (R25, R27,
R29), its pc and status words, charging cycles by the waitstate table (R75, R440), bus accesses and what the collaborators
do while they answer them (R60, R66, R76, R78, R386, R404), jumps (R33, R441), taking an exception (R381) and returning
from one (R164). -/

namespace Sys2Proof.Machine

/-- What a meaning answers. -/
abbrev Result := Host.Outcome State Fault Refusal

/-! ### The running processor -/

/-- The ProcessorState of the processor whose step this is. -/
abbrev State.cpu (s : State) : ProcState := s.cpus.get s.cur

/-- Change the running processor's state by f. -/
def State.withCpu (s : State) (f : ProcState → ProcState) : State := { s with cpus := s.cpus.modify s.cur f }

/-- Fatal(Unsupported, w, pc) (R395). -/
def fatal (s : State) : Result := .fault (.unsupported s.ir s.cpu.pc)

/-- Fatal(InvalidState, w, pc) (R395). -/
def inconsistent (s : State) : Result := .fault (.invalidState s.ir s.cpu.pc)

/-! ### Registers -/

/-- How far beyond the user bank's place register i of mode m lies (R25): the FIQ bank of 8 to 14 is 8 places on, the
pairs of IRQ, SVC, ABT and UND are 10, 12, 14 and 16 places on. USR and SYS have the user bank itself; so has a mode number
that is no mode, which R28 keeps from ever standing in CPSR. -/
def bankOffset (m : BitVec 5) (i : Nat) : Nat :=
  if i = 13 ∨ i = 14 then
    if m = Mode.fiq.bits then 8
    else if m = Mode.irq.bits then 10
    else if m = Mode.svc.bits then 12
    else if m = Mode.abt.bits then 14
    else if m = Mode.und.bits then 16
    else 0
  else if 8 ≤ i ∧ i ≤ 12 ∧ m = Mode.fiq.bits then 8
  else 0

theorem bankOffset_lt (m : BitVec 5) (i : Reg) : i.toNat + bankOffset m i.toNat < 31 := by
  have := i.isLt
  unfold bankOffset
  split
  · split <;> (try split) <;> (try split) <;> (try split) <;> (try split) <;> omega
  · split <;> omega

/-- bank(m, i), the place of register i of mode m in the physical register file (R22, R25). -/
def bank (m : BitVec 5) (i : Reg) : Fin 31 := ⟨i.toNat + bankOffset m i.toNat, bankOffset_lt m i⟩

/-- Register i, 0 to 14, in the bank of mode m. -/
def ProcState.bankReg (p : ProcState) (m : BitVec 5) (i : Reg) : Word := p.phys.get (bank m i)

/-- Write register i, 0 to 14, in the bank of mode m. -/
def ProcState.setBankReg (p : ProcState) (m : BitVec 5) (i : Reg) (v : Word) : ProcState :=
  { p with phys := p.phys.set (bank m i).val v (bank m i).isLt }

/-- R[i] for i in 0 to 14: the current mode's register (R27). -/
abbrev ProcState.gpr (p : ProcState) (i : Reg) : Word := p.bankReg p.cpsr.m i

/-- R[i] ← v for i in 0 to 14 (R27). -/
abbrev ProcState.setGpr (p : ProcState) (i : Reg) (v : Word) : ProcState := p.setBankReg p.cpsr.m i v

/-- R[i] as an ARM instruction reads it: R15 is pc + 8 (R31). -/
def ProcState.armReg (p : ProcState) (i : Reg) : Word := if i = 15#4 then p.pc + 8#32 else p.gpr i

/-- R[i] as a Thumb instruction reads it: R15 is pc + 4 (R31). -/
def ProcState.thumbReg (p : ProcState) (i : Reg) : Word := if i = 15#4 then p.pc + 4#32 else p.gpr i

/-- The 4-bit number of a register R0 to R7 (R52). -/
def wide (r : LowReg) : Reg := r.setWidth 4

/-- Advance to the next instruction (R32): n is 4 in ARM state, 2 in Thumb state. -/
def ProcState.advance (p : ProcState) (n : Word) : ProcState := { p with pc := p.pc + n }

/-- Write N, Z, C and V. -/
def ProcState.setFlags (p : ProcState) (f : Flags) : ProcState := { p with cpsr := p.cpsr.withFlags f }

/-- Write N, Z, C and V if the S bit asks for it. -/
def ProcState.setFlagsIf (p : ProcState) (sf : Bool) (f : Flags) : ProcState := if sf then p.setFlags f else p

/-- Set the sticky Q flag if an instruction saturated (R37). -/
def ProcState.stickQ (p : ProcState) (sat : Bool) : ProcState := { p with cpsr := { p.cpsr with q := p.cpsr.q || sat } }

/-- Set T (R40). -/
def ProcState.setT (p : ProcState) (t : Bool) : ProcState := { p with cpsr := { p.cpsr with t := t } }

/-- charge(n) (R16). -/
def ProcState.charge (p : ProcState) (n : Nat) : ProcState := { p with ts := p.ts + n }

/-- Go on with the next ARM instruction. -/
def State.advanceArm (s : State) : State := s.withCpu (·.advance 4#32)

/-- Go on with the next Thumb instruction. -/
def State.advanceThumb (s : State) : State := s.withCpu (·.advance 2#32)

/-- R[i] ← v on the running processor. -/
def State.setGpr (s : State) (i : Reg) (v : Word) : State := s.withCpu (·.setGpr i v)

/-- Internal cycles (R442). -/
def State.charge (s : State) (n : Nat) : State := s.withCpu (·.charge n)

/-- The meaning f of a conditional ARM instruction: it runs if the condition passes against the flags at its start (R130);
if not, only the pc advances (R131). -/
def ifPassed (c : Cond) (s : State) (f : State → Result) : Result :=
  if condPassed c s.cpu.cpsr then f s else .next s.advanceArm

/-- The meaning f of a class that only A has: its words are UNDEF on B, whatever their condition (R95, R125). -/
def onlyIfA (s : State) (f : State → Result) : Result :=
  match s.cur with
  | .A => f s
  | .B => fatal s

/-! ### Waitstates -/

/-- The row of one timing class (R75). -/
def WaitRow.get (r : WaitRow) : WaitClass → Cycles
  | .n32 => r.n32
  | .s32 => r.s32
  | .n16 => r.n16
  | .s16 => r.s16

/-- Replace one class (R78). -/
def WaitRow.put (r : WaitRow) (k : WaitClass) (c : Cycles) : WaitRow :=
  match k with
  | .n32 => { r with n32 := c }
  | .s32 => { r with s32 := c }
  | .n16 => { r with n16 := c }
  | .s16 => { r with s16 := c }

/-- region(addr): the 16 MB region of an address (R75). -/
def regionOf (addr : Word) : BitVec 4 := addr.extractLsb' 24 4

/-- class(width, seq) (R75); bytes use the 16-bit classes (R77). -/
def waitClass (w : Width) (seq : Bool) : WaitClass :=
  match w, seq with
  | .word, true => .s32
  | .word, false => .n32
  | _, true => .s16
  | _, false => .n16

/-- WAITSTATE[p][region(addr)][k] of the running processor (R75). -/
def State.waitCost (s : State) (addr : Word) (k : WaitClass) : Nat :=
  (((s.waits.get s.cur).get (regionOf addr).toFin).get k).count

/-- set_waitstate(p, region, class, cycles) (R78). -/
def State.setWaitstate (s : State) (p : Proc) (region : BitVec 4) (k : WaitClass) (c : Cycles) : State :=
  { s with waits := s.waits.modify p fun t => t.set region.toNat ((t.get region.toFin).put k c) region.isLt }

/-! ### Collaborators -/

/-- A collaborator's answer and the state after it was asked for. -/
structure Asked where
  reply : Reply
  s : State

/-- Put a request to a collaborator: its answer is the oldest one in the inbox, or a free value where there is none
(R60, R64; log entry 8). -/
def State.ask (s : State) (q : Request) : Asked :=
  match s.inbox with
  | r :: rest => ⟨r, { s with inbox := rest, outbox := q :: s.outbox }⟩
  | [] => ⟨freeReply s.draws, { s with draws := s.draws + 1, outbox := q :: s.outbox }⟩

/-- request_interrupt(p, id): sets IF_p[id]; an id of 32 or more is ignored (R386, D58). -/
def State.requestInterrupt (s : State) (p : Proc) (id : Nat) : State :=
  if id < 32 then { s with irqs := s.irqs.modify p fun u => { u with pending := u.pending ||| (1#32 <<< id) } } else s

/-- schedule(id, activation) (R404): at the end of the queue, with the next order of creation. -/
def State.schedule (s : State) (id activation : Nat) : State :=
  { s with events := s.events ++ [⟨id, activation, s.nextSeq⟩], nextSeq := s.nextSeq + 1 }

/-- halted ← true for the running processor (R391). -/
def State.halt (s : State) : State := s.withCpu fun p => { p with halted := true }

/-- One call of a collaborator. set_waitstate is one only in the side effect of a bus write or in an event handler (R78),
halt(p) only while one of p's own stores is answered (R391), and a write of memory only in a bus access, an event handler
(R84) or a BIOS handler (R410); elsewhere they have no effect. -/
def State.applyCall (s : State) (src : CallSource) (c : Call) : State :=
  match c with
  | .requestInterrupt p id => s.requestInterrupt p id
  | .setIme p v => { s with irqs := s.irqs.modify p fun u => { u with ime := v } }
  | .setEnable p v => { s with irqs := s.irqs.modify p fun u => { u with enable := v } }
  | .setPending p v => { s with irqs := s.irqs.modify p fun u => { u with pending := v } }
  | .schedule id activation => s.schedule id activation
  | .setWaitstate p region k c => if src = .write ∨ src = .event then s.setWaitstate p region k c else s
  | .remap p regions => { s with maps := s.maps.put p regions }
  | .writeCell cell v => if src = .coprocessor then s else { s with mem := s.mem.set cell v }
  | .halt => if src = .write then s.halt else s

/-- The calls of a collaborator, in order. -/
def State.applyCalls (s : State) (src : CallSource) : List Call → State
  | [] => s
  | c :: cs => (s.applyCall src c).applyCalls src cs

/-! ### Bus accesses -/

/-- The address an access is presented at: the low bits of a word or halfword address are cleared (R66). -/
def Width.align (w : Width) (addr : Word) : Word :=
  match w with
  | .byte => addr
  | .half => addr &&& 0xFFFFFFFE#32
  | .word => addr &&& 0xFFFFFFFC#32

/-- The access at addr follows the previous one of the processor: same width, next address (R76). -/
def ProcState.sequential (p : ProcState) (addr : Word) (w : Width) : Bool :=
  match p.lastbus with
  | none => false
  | some b => b.width == w && addr == b.addr + BitVec.ofNat 32 w.size

/-- Charge one access and remember it (R75, R76). -/
def State.account (s : State) (addr : Word) (w : Width) (seq : Bool) : State :=
  s.withCpu fun p => { p with ts := p.ts + s.waitCost addr (waitClass w seq), lastbus := some ⟨addr, w⟩ }

/-- A value read, and the state after the access. -/
structure Access where
  v : Word
  s : State

/-- The bus's answer to a read at a presented address: the bytes of memory where memory is behind all of them, the
collaborator's value elsewhere (R60, R63, R64). -/
def State.busRead (s : State) (addr : Word) (w : Width) : Access :=
  match cellsIn (s.maps.get s.cur) addr.toNat w.size with
  | some cells => ⟨s.mem.readCells cells, s⟩
  | none =>
    let x := s.ask (.busRead s.cur addr w)
    ⟨w.clip x.reply.value, x.s.applyCalls .read x.reply.calls⟩

/-- A write at a presented address: to memory where memory is behind all of it, to the collaborator elsewhere (R60, R63,
R64, R391). -/
def State.busWrite (s : State) (addr : Word) (w : Width) (v : Word) : State :=
  match cellsIn (s.maps.get s.cur) addr.toNat w.size with
  | some cells => { s with mem := s.mem.writeCells cells (bytesOf v w.size) }
  | none =>
    let x := s.ask (.busWrite s.cur addr w (w.clip v))
    x.s.applyCalls .write x.reply.calls

/-- MemRead(addr, n) as an access of the given sequentiality (R15, R75). -/
def State.memRead (s : State) (addr : Word) (w : Width) (seq : Bool) : Access :=
  (s.account (w.align addr) w seq).busRead (w.align addr) w

/-- MemWrite(addr, n, v) as an access of the given sequentiality (R15, R75). -/
def State.memWrite (s : State) (addr : Word) (w : Width) (v : Word) (seq : Bool) : State :=
  (s.account (w.align addr) w seq).busWrite (w.align addr) w v

/-- MemRead(addr, n) outside a block transfer: sequential by R76. -/
def State.load (s : State) (addr : Word) (w : Width) : Access :=
  s.memRead addr w (s.cpu.sequential (w.align addr) w)

/-- MemWrite(addr, n, v) outside a block transfer: sequential by R76. -/
def State.store (s : State) (addr : Word) (w : Width) (v : Word) : State :=
  s.memWrite addr w v (s.cpu.sequential (w.align addr) w)

/-! ### Jumps -/

/-- A written pc, aligned for the state in force after the instruction (R33). -/
def alignPc (t : Bool) (target : Word) : Word := if t then target &&& 0xFFFFFFFE#32 else target &&& 0xFFFFFFFC#32

/-- A write of R15 (R33): pc is the aligned target, the next fetch is non-sequential, and one refill of the new state's code
width at the target's region is charged (R441). T itself is the caller's. -/
def State.jumpTo (s : State) (t : Bool) (target : Word) : State :=
  s.withCpu fun p =>
    { p with
      pc := alignPc t target
      ts := p.ts + s.waitCost (alignPc t target) (if t then .s16 else .s32)
      lastbus := none }

/-- Branch exchange: T is bit 0 of the value, the pc the value aligned (R262). -/
def State.interwork (s : State) (v : Word) : State := (s.withCpu (·.setT (v.getLsbD 0))).jumpTo (v.getLsbD 0) v

/-! ### Exceptions -/

/-- EnterException(m, off, lr) (R381): SPSR_m is the old CPSR, R14_m is lr, M is m, T is 0, I is 1, the pc is the vector;
the next fetch is non-sequential (R76). -/
def State.enterException (s : State) (m : Mode) (off lr : Word) : State :=
  s.withCpu fun p =>
    { p.setBankReg m.bits 14#4 lr with
      spsr := p.spsr.put m.bits p.cpsr
      cpsr := { p.cpsr with m := m.bits, t := false, i := true }
      pc := Config.excBase s.cur + off
      lastbus := none }

/-- Software-interrupt entry (R380): the next instruction's address goes to LR_svc, and one refill in ARM state is charged
(R441). -/
def State.enterSwi (s : State) (lr : Word) : State :=
  (s.enterException .svc 0x08#32 lr).charge (s.waitCost (Config.excBase s.cur + 0x08#32) .s32)

/-- What a host BIOS handler does to the processor (R410, D37); R15 and T are not its to write, since R410 itself says where
the processor goes on, and R40 what changes T. -/
def State.applyHostWrite (s : State) (h : HostWrite) : State :=
  match h with
  | .setReg m i v => if i = 15#4 then s else s.withCpu fun p => p.setBankReg m.bits i v
  | .setCpsr v m => s.withCpu fun p => { p with cpsr := { v with m := m.bits, t := p.cpsr.t } }
  | .setSpsr m v => s.withCpu fun p => { p with spsr := p.spsr.put m.bits v }
  | .setHalted => s.halt
  | .charge n => s.charge n

/-- A handler's writes, in order. -/
def State.applyHostWrites (s : State) : List HostWrite → State
  | [] => s
  | h :: hs => (s.applyHostWrite h).applyHostWrites hs

/-- HLE_BIOS[p].handles(n) (R410). -/
def State.hleHandles (s : State) (n : BitVec 8) : Bool :=
  match s.cfg.hleBios.get s.cur with
  | none => false
  | some ns => ns.contains n

/-- A software interrupt of call number n whose next instruction is at next: the host's handler, if it handles n, and the
next instruction; otherwise exception entry (R265, R380, R410). -/
def State.softwareInterrupt (s : State) (n : BitVec 8) (next : Word) : State :=
  if s.hleHandles n then
    let x := s.ask (.bios s.cur n)
    ((x.s.applyCalls .bios x.reply.calls).applyHostWrites x.reply.host).withCpu fun p => { p with pc := next }
  else s.enterSwi next

/-- Status-restore-and-jump (R164, R244, R383): CPSR is the SPSR of the mode, and the pc is r aligned for its T. A mode
without an SPSR, or an SPSR whose M is no mode, is Fatal(InvalidState) (R39). -/
def State.statusRestoreJump (s : State) (r : Word) : Result :=
  match s.cpu.spsr.get? s.cpu.cpsr.m with
  | none => inconsistent s
  | some saved =>
    if modeValid saved.m then .next ((s.withCpu fun p => { p with cpsr := saved }).jumpTo saved.t r)
    else inconsistent s

/-- is_interrupt_pending(p) of the running processor (R386). -/
def State.interruptPending (s : State) : Bool :=
  (s.irqs.get s.cur).enable &&& (s.irqs.get s.cur).pending != 0#32

/-- irq_due(p) of the running processor (R387). -/
def State.irqDue (s : State) : Bool :=
  (s.irqs.get s.cur).ime && s.interruptPending && !s.cpu.cpsr.i && !s.cpu.halted

/-- IRQ entry (R388): LR_irq is the next instruction's address plus 4; IRQ_ENTRY_CYCLES is charged, and no refill (R442). -/
def State.enterIrq (s : State) : State :=
  (s.enterException .irq 0x18#32 (s.cpu.pc + 4#32)).charge (s.cfg.irqEntryCycles.get s.cur)

/-- The poll after every retired instruction (R387, R402). -/
def State.pollIrq (s : State) : State := if s.irqDue then s.enterIrq else s

end Sys2Proof.Machine
end

