-- ==== Sys2Proof/Machine/Operands.lean ====
section
/-! DEFINITION. The operand forms: the barrel shifter (R133 to R138), the three forms of operand 2 (R139, R160, R162), the
addressing of single transfers (R220, R226) and the loads of 20_memory.md R67 and R68. -/

namespace Sys2Proof.Machine

/-! ### The barrel shifter -/

/-- A shifted value and the carry out. -/
structure Shifted where
  r : Word
  c : Bool
deriving DecidableEq, Repr, Inhabited

/-- LSL(v, n, c_in) (R133). -/
def shiftLsl (v : Word) (n : Nat) (cin : Bool) : Shifted :=
  if n = 0 then ⟨v, cin⟩
  else if n ≤ 31 then ⟨v <<< n, v.getLsbD (32 - n)⟩
  else if n = 32 then ⟨0#32, v.getLsbD 0⟩
  else ⟨0#32, false⟩

/-- LSR(v, n, c_in) (R134). -/
def shiftLsr (v : Word) (n : Nat) (cin : Bool) : Shifted :=
  if n = 0 then ⟨v, cin⟩
  else if n ≤ 31 then ⟨v >>> n, v.getLsbD (n - 1)⟩
  else if n = 32 then ⟨0#32, v.getLsbD 31⟩
  else ⟨0#32, false⟩

/-- ASR(v, n, c_in) (R135). -/
def shiftAsr (v : Word) (n : Nat) (cin : Bool) : Shifted :=
  if n = 0 then ⟨v, cin⟩
  else if n ≤ 31 then ⟨v.sshiftRight n, v.getLsbD (n - 1)⟩
  else ⟨if v.getLsbD 31 then 0xFFFFFFFF#32 else 0#32, v.getLsbD 31⟩

/-- ROR(v, n, c_in) (R136). -/
def shiftRor (v : Word) (n : Nat) (cin : Bool) : Shifted :=
  if n = 0 then ⟨v, cin⟩
  else if n % 32 = 0 then ⟨v, v.getLsbD 31⟩
  else ⟨v.rotateRight (n % 32), v.getLsbD (n % 32 - 1)⟩

/-- RRX(v, c_in) (R136). -/
def shiftRrx (v : Word) (cin : Bool) : Shifted :=
  ⟨((BitVec.ofBool cin).setWidth 32 <<< 31) ||| (v >>> 1), v.getLsbD 0⟩

/-- Shift(v, type, n, c): a register-specified amount (R138, R160). -/
def shiftBy (v : Word) (ty : ShiftType) (n : Nat) (cin : Bool) : Shifted :=
  match ty with
  | .lsl => shiftLsl v n cin
  | .lsr => shiftLsr v n cin
  | .asr => shiftAsr v n cin
  | .ror => shiftRor v n cin

/-- ShiftImm(v, type, imm5, c_in) (R137): an encoded 0 is LSL #0, LSR #32, ASR #32 or RRX (90_conflicts.md C6). -/
def shiftImm (v : Word) (ty : ShiftType) (imm5 : BitVec 5) (cin : Bool) : Shifted :=
  match ty with
  | .lsl => shiftLsl v imm5.toNat cin
  | .lsr => shiftLsr v (if imm5 = 0#5 then 32 else imm5.toNat) cin
  | .asr => shiftAsr v (if imm5 = 0#5 then 32 else imm5.toNat) cin
  | .ror => if imm5 = 0#5 then shiftRrx v cin else shiftRor v imm5.toNat cin

/-- imm32 = ror(zext_32(imm8), 2 * rot) (R97, R139). -/
def rotatedImm (rot : BitVec 4) (imm8 : BitVec 8) : Word := (imm8.setWidth 32).rotateRight (2 * rot.toNat)

/-- Operand 2 with I = 1 and its shifter carry (R139). -/
def immOperand (rot : BitVec 4) (imm8 : BitVec 8) (cin : Bool) : Shifted :=
  ⟨rotatedImm rot imm8, if rot = 0#4 then cin else (rotatedImm rot imm8).getLsbD 31⟩

/-- RegOp(i, true): R15 reads pc + PC_REGSHIFT_OFFSET in the register-shift form (R160, R162). -/
def State.shiftReg (s : State) (i : Reg) : Word :=
  if i = 15#4 then s.cpu.pc + s.cfg.pcRegShiftOffset else s.cpu.gpr i

/-- The amount of a register-specified shift: R[s][7:0] (R138). -/
def ProcState.shiftAmount (p : ProcState) (rs : Reg) : Nat := ((p.gpr rs).extractLsb' 0 8).toNat

/-! ### Addresses of single transfers -/

/-- The address of a transfer and the value written back to the base, if one is. -/
structure Transfer where
  addr : Word
  writeback : Option Word
deriving DecidableEq, Repr, Inhabited

/-- The addressing of R220: up or down, pre- or post-indexed; a post-indexed transfer always writes back. -/
def transferOf (p u w : Bool) (base off : Word) : Transfer :=
  let offaddr := if u then base + off else base - off
  ⟨if p then offaddr else base, if !p || w then some offaddr else none⟩

/-- Write the base back, if the transfer does. -/
def State.writeBase (s : State) (rn : Reg) (x : Transfer) : State :=
  match x.writeback with
  | none => s
  | some v => s.setGpr rn v

/-- A transfer from base Rn at offset off, given to f; writing back to R15 is refused (R220, R226). -/
def transfer (p u w : Bool) (rn : Reg) (off : Word) (s : State) (f : Transfer → State → Result) : Result :=
  let x := transferOf p u w (s.cpu.armReg rn) off
  if x.writeback.isSome ∧ rn = 15#4 then fatal s else f x s

/-- A transfer at an immediate offset (R220 with I = 0). -/
def transferImm (p u w : Bool) (rn : Reg) (off12 : BitVec 12) (s : State) (f : Transfer → State → Result) : Result :=
  transfer p u w rn (off12.setWidth 32) s f

/-- A transfer at a scaled register offset (R220 with I = 1): Rm = 15 is refused, the shifter carry discarded. -/
def transferReg (p u w : Bool) (rn : Reg) (sh : BitVec 5) (ty : ShiftType) (rm : Reg) (s : State)
    (f : Transfer → State → Result) : Result :=
  if rm = 15#4 then fatal s
  else transfer p u w rn (shiftImm (s.cpu.gpr rm) ty sh s.cpu.cpsr.c).r s f

/-- A transfer of the halfword, signed and doubleword class (R226): Rm = 15 is refused. -/
def transferHalf (p u w : Bool) (rn : Reg) (off : HalfOffset) (s : State) (f : Transfer → State → Result) : Result :=
  match off with
  | .imm v => transfer p u w rn (v.setWidth 32) s f
  | .reg rm => if rm = 15#4 then fatal s else transfer p u w rn (s.cpu.gpr rm) s f

/-! ### Loads -/

/-- LoadWordRotated(addr) (R67). -/
def State.loadWordRotated (s : State) (addr : Word) : Access :=
  let x := s.load addr .word
  ⟨x.v.rotateRight (8 * (addr.extractLsb' 0 2).toNat), x.s⟩

/-- zext_32(MemRead(addr, 1)) (R223). -/
def State.loadByte (s : State) (addr : Word) : Access := s.load addr .byte

/-- LoadHalf(addr) (R68): A aligns, B rotates an odd address by 8. -/
def State.loadHalf (s : State) (addr : Word) : Access :=
  let x := s.load addr .half
  match s.cur with
  | .A => x
  | .B => ⟨x.v.rotateRight (8 * (addr.extractLsb' 0 1).toNat), x.s⟩

/-- LoadSignedByte(addr) (R68). -/
def State.loadSignedByte (s : State) (addr : Word) : Access :=
  let x := s.load addr .byte
  ⟨(x.v.setWidth 8).signExtend 32, x.s⟩

/-- LoadSignedHalf(addr) (R68): A aligns, B loads the byte of an odd address. -/
def State.loadSignedHalf (s : State) (addr : Word) : Access :=
  match s.cur, addr.getLsbD 0 with
  | .B, true => s.loadSignedByte addr
  | _, _ =>
    let x := s.load addr .half
    ⟨(x.v.setWidth 16).signExtend 32, x.s⟩

/-- A load of R15 by a word load or LDM in ARM state (R221, R240): A interworks, B stays in ARM state. -/
def State.loadPc (s : State) (v : Word) : State :=
  match s.cur with
  | .A => s.interwork v
  | .B => s.jumpTo false v

end Sys2Proof.Machine
end

