-- ==== Sys2Proof/Machine/LoadStore.lean ====
section
/-! DEFINITION. ARM single, halfword, signed and doubleword transfers and swap (43_arm_load_store.md sections 1, 2 and 4),
with their internal cycles (R442). -/

namespace Sys2Proof.Machine

/-! ### What each kind of transfer does at its address -/

/-- LDR and LDRT (R221, R225): the base is written back before Rd; R15 is a jump. -/
def doLdr (rd rn : Reg) (x : Transfer) (s : State) : Result :=
  let m := s.loadWordRotated x.addr
  let s' := (m.s.writeBase rn x).charge 1
  if rd = 15#4 then .next (s'.loadPc m.v) else .next (s'.withCpu fun p => (p.setGpr rd m.v).advance 4#32)

/-- The value STR and STM store for a register: R15 is pc + STORE_PC_OFFSET (R222, R241). -/
def State.storedReg (s : State) (i : Reg) : Word := if i = 15#4 then s.cpu.pc + s.cfg.storePcOffset else s.cpu.gpr i

/-- STR and STRT (R222, R225): Rd is read before the base is written back. -/
def doStr (rd rn : Reg) (x : Transfer) (s : State) : Result :=
  .next (((s.store x.addr .word (s.storedReg rd)).writeBase rn x).advanceArm)

/-- A load of Rd by f, the base written back before it; Rd = 15 is refused (R223, R226). -/
def doLoad (f : State → Word → Access) (rd rn : Reg) (x : Transfer) (s : State) : Result :=
  if rd = 15#4 then fatal s
  else
    let m := f s x.addr
    .next (((m.s.writeBase rn x).charge 1).withCpu fun p => (p.setGpr rd m.v).advance 4#32)

/-- A store of the low part of Rd, read before the base is written back; Rd = 15 is refused (R224, R226). -/
def doStore (w : Width) (rd rn : Reg) (x : Transfer) (s : State) : Result :=
  if rd = 15#4 then fatal s else .next (((s.store x.addr w (s.cpu.gpr rd)).writeBase rn x).advanceArm)

/-- What LDRD and STRD refuse: Rd odd or 14, or a writeback onto Rd or Rd + 1 (R231, R232, D27). -/
def pairRefused (rd rn : Reg) (x : Transfer) : Bool :=
  rd.getLsbD 0 || rd == 14#4 || (x.writeback.isSome && (rn == rd || rn == rd + 1#4))

/-- LDRD (R231): two words from the word-aligned address, the first access non-sequential, the second sequential (R76). -/
def doLdrd (rd rn : Reg) (x : Transfer) (s : State) : Result :=
  if pairRefused rd rn x then fatal s
  else
    let a := Width.word.align x.addr
    let lo := s.memRead a .word false
    let hi := lo.s.memRead (a + 4#32) .word true
    .next (((hi.s.withCpu fun p => (p.setGpr rd lo.v).setGpr (rd + 1#4) hi.v).writeBase rn x).charge 1).advanceArm

/-- STRD (R232). -/
def doStrd (rd rn : Reg) (x : Transfer) (s : State) : Result :=
  if pairRefused rd rn x then fatal s
  else
    let a := Width.word.align x.addr
    let s' := s.memWrite a .word (s.cpu.gpr rd) false
    .next (((s'.memWrite (a + 4#32) .word (s.cpu.gpr (rd + 1#4)) true).writeBase rn x).advanceArm)

/-! ### Words and bytes -/

/-- LDR, immediate offset (R221). -/
def execLdrImm (c : Cond) (p u w : Bool) (rn rd : Reg) (off12 : BitVec 12) (s : State) : Result :=
  ifPassed c s fun s => transferImm p u w rn off12 s (doLdr rd rn)

/-- LDR, register offset (R221). -/
def execLdrReg (c : Cond) (p u w : Bool) (rn rd : Reg) (sh : BitVec 5) (ty : ShiftType) (rm : Reg) (s : State) : Result :=
  ifPassed c s fun s => transferReg p u w rn sh ty rm s (doLdr rd rn)

/-- STR, immediate offset (R222). -/
def execStrImm (c : Cond) (p u w : Bool) (rn rd : Reg) (off12 : BitVec 12) (s : State) : Result :=
  ifPassed c s fun s => transferImm p u w rn off12 s (doStr rd rn)

/-- STR, register offset (R222). -/
def execStrReg (c : Cond) (p u w : Bool) (rn rd : Reg) (sh : BitVec 5) (ty : ShiftType) (rm : Reg) (s : State) : Result :=
  ifPassed c s fun s => transferReg p u w rn sh ty rm s (doStr rd rn)

/-- LDRB, immediate offset (R223). -/
def execLdrbImm (c : Cond) (p u w : Bool) (rn rd : Reg) (off12 : BitVec 12) (s : State) : Result :=
  ifPassed c s fun s => transferImm p u w rn off12 s (doLoad State.loadByte rd rn)

/-- LDRB, register offset (R223). -/
def execLdrbReg (c : Cond) (p u w : Bool) (rn rd : Reg) (sh : BitVec 5) (ty : ShiftType) (rm : Reg) (s : State) : Result :=
  ifPassed c s fun s => transferReg p u w rn sh ty rm s (doLoad State.loadByte rd rn)

/-- STRB, immediate offset (R224). -/
def execStrbImm (c : Cond) (p u w : Bool) (rn rd : Reg) (off12 : BitVec 12) (s : State) : Result :=
  ifPassed c s fun s => transferImm p u w rn off12 s (doStore .byte rd rn)

/-- STRB, register offset (R224). -/
def execStrbReg (c : Cond) (p u w : Bool) (rn rd : Reg) (sh : BitVec 5) (ty : ShiftType) (rm : Reg) (s : State) : Result :=
  ifPassed c s fun s => transferReg p u w rn sh ty rm s (doStore .byte rd rn)

/-- LDRT, immediate offset: LDR post-indexed (R225). -/
def execLdrtImm (c : Cond) (u : Bool) (rn rd : Reg) (off12 : BitVec 12) (s : State) : Result :=
  ifPassed c s fun s => transferImm false u true rn off12 s (doLdr rd rn)

/-- LDRT, register offset (R225). -/
def execLdrtReg (c : Cond) (u : Bool) (rn rd : Reg) (sh : BitVec 5) (ty : ShiftType) (rm : Reg) (s : State) : Result :=
  ifPassed c s fun s => transferReg false u true rn sh ty rm s (doLdr rd rn)

/-- STRT, immediate offset: STR post-indexed (R225). -/
def execStrtImm (c : Cond) (u : Bool) (rn rd : Reg) (off12 : BitVec 12) (s : State) : Result :=
  ifPassed c s fun s => transferImm false u true rn off12 s (doStr rd rn)

/-- STRT, register offset (R225). -/
def execStrtReg (c : Cond) (u : Bool) (rn rd : Reg) (sh : BitVec 5) (ty : ShiftType) (rm : Reg) (s : State) : Result :=
  ifPassed c s fun s => transferReg false u true rn sh ty rm s (doStr rd rn)

/-- LDRBT, immediate offset: LDRB post-indexed (R225). -/
def execLdrbtImm (c : Cond) (u : Bool) (rn rd : Reg) (off12 : BitVec 12) (s : State) : Result :=
  ifPassed c s fun s => transferImm false u true rn off12 s (doLoad State.loadByte rd rn)

/-- LDRBT, register offset (R225). -/
def execLdrbtReg (c : Cond) (u : Bool) (rn rd : Reg) (sh : BitVec 5) (ty : ShiftType) (rm : Reg) (s : State) : Result :=
  ifPassed c s fun s => transferReg false u true rn sh ty rm s (doLoad State.loadByte rd rn)

/-- STRBT, immediate offset: STRB post-indexed (R225). -/
def execStrbtImm (c : Cond) (u : Bool) (rn rd : Reg) (off12 : BitVec 12) (s : State) : Result :=
  ifPassed c s fun s => transferImm false u true rn off12 s (doStore .byte rd rn)

/-- STRBT, register offset (R225). -/
def execStrbtReg (c : Cond) (u : Bool) (rn rd : Reg) (sh : BitVec 5) (ty : ShiftType) (rm : Reg) (s : State) : Result :=
  ifPassed c s fun s => transferReg false u true rn sh ty rm s (doStore .byte rd rn)

/-! ### Halfwords, signed and doubleword -/

/-- LDRH (R227). -/
def execLdrh (c : Cond) (p u w : Bool) (rn rd : Reg) (off : HalfOffset) (s : State) : Result :=
  ifPassed c s fun s => transferHalf p u w rn off s (doLoad State.loadHalf rd rn)

/-- STRH (R228). -/
def execStrh (c : Cond) (p u w : Bool) (rn rd : Reg) (off : HalfOffset) (s : State) : Result :=
  ifPassed c s fun s => transferHalf p u w rn off s (doStore .half rd rn)

/-- LDRSB (R229). -/
def execLdrsb (c : Cond) (p u w : Bool) (rn rd : Reg) (off : HalfOffset) (s : State) : Result :=
  ifPassed c s fun s => transferHalf p u w rn off s (doLoad State.loadSignedByte rd rn)

/-- LDRSH (R230). -/
def execLdrsh (c : Cond) (p u w : Bool) (rn rd : Reg) (off : HalfOffset) (s : State) : Result :=
  ifPassed c s fun s => transferHalf p u w rn off s (doLoad State.loadSignedHalf rd rn)

/-- LDRD (R231, A only). -/
def execLdrd (c : Cond) (p u w : Bool) (rn rd : Reg) (off : HalfOffset) (s : State) : Result :=
  onlyIfA s fun s => ifPassed c s fun s => transferHalf p u w rn off s (doLdrd rd rn)

/-- STRD (R232, A only). -/
def execStrd (c : Cond) (p u w : Bool) (rn rd : Reg) (off : HalfOffset) (s : State) : Result :=
  onlyIfA s fun s => ifPassed c s fun s => transferHalf p u w rn off s (doStrd rd rn)

/-! ### Swap -/

/-- SWP (R250): operands read first, the word read rotated, then the write, then Rd. -/
def execSwp (c : Cond) (rn rd rm : Reg) (s : State) : Result :=
  ifPassed c s fun s =>
    if [rn, rd, rm].contains 15#4 then fatal s
    else
      let m := s.loadWordRotated (s.cpu.gpr rn)
      .next ((m.s.store (s.cpu.gpr rn) .word (s.cpu.gpr rm)).withCpu fun p =>
        ((p.setGpr rd m.v).charge 1).advance 4#32)

/-- SWPB (R251). -/
def execSwpb (c : Cond) (rn rd rm : Reg) (s : State) : Result :=
  ifPassed c s fun s =>
    if [rn, rd, rm].contains 15#4 then fatal s
    else
      let m := s.loadByte (s.cpu.gpr rn)
      .next ((m.s.store (s.cpu.gpr rn) .byte (s.cpu.gpr rm)).withCpu fun p =>
        ((p.setGpr rd m.v).charge 1).advance 4#32)

end Sys2Proof.Machine
end

