-- ==== Sys2Proof/Machine/BlockTransfer.lean ====
section
/-! DEFINITION. Block transfers: LDM and STM with the user-bank and status-restoring forms (43_arm_load_store.md section 3),
and the bus work they share with the Thumb block transfers (R235, R236, R345 to R348). -/

namespace Sys2Proof.Machine

/-! ### Lists, addresses and order -/

/-- The register numbers 0 to 15. -/
def allRegs : List Reg :=
  [0#4, 1#4, 2#4, 3#4, 4#4, 5#4, 6#4, 7#4, 8#4, 9#4, 10#4, 11#4, 12#4, 13#4, 14#4, 15#4]

/-- The registers of a list, in ascending number (R235). -/
def regsOf (list : BitVec 16) : List Reg := allRegs.filter fun i => list.getLsbD i.toNat

/-- The size of a list in bytes, 4n (R235). -/
def blockSize (regs : List Reg) : Word := BitVec.ofNat 32 (4 * regs.length)

/-- The lowest address of the four modes (R235). -/
def blockLowest (p u : Bool) (base size : Word) : Word :=
  match u, p with
  | true, false => base
  | true, true => base + 4#32
  | false, false => base - size + 4#32
  | false, true => base - size

/-- The written-back value of the four modes (R235). -/
def blockNewBase (u : Bool) (base size : Word) : Word := if u then base + size else base - size

/-- The registers with their ascending word addresses from the lowest on (R235). -/
def placed : List Reg → Word → List (Reg × Word)
  | [], _ => []
  | i :: rest, a => (i, a) :: placed rest (a + 4#32)

/-- The order of the bus accesses: from the lowest register up, or from the highest down (R236). -/
def busOrder (u : Bool) (places : List (Reg × Word)) : List (Reg × Word) := if u then places else places.reverse

/-- What a block load has read, and the state after it. -/
structure BlockRead where
  values : List (Reg × Word)
  s : State

/-- Read the words of a block, in order: the first access non-sequential, the others sequential (R76, R236). -/
def State.readBlock (s : State) (seq : Bool) : List (Reg × Word) → BlockRead
  | [] => ⟨[], s⟩
  | (i, a) :: rest =>
    let m := s.memRead a .word seq
    let more := m.s.readBlock true rest
    ⟨(i, m.v) :: more.values, more.s⟩

/-- Write the words of a block, in order, each register's value given by val (R236, R241). -/
def State.writeBlock (s : State) (val : Reg → Word) (seq : Bool) : List (Reg × Word) → State
  | [] => s
  | (i, a) :: rest => (s.memWrite a .word (val i) seq).writeBlock val true rest

/-- Write loaded values to the registers of mode m's bank; R15 is not one of them (R238, R243). -/
def ProcState.writeRegs (p : ProcState) (m : BitVec 5) : List (Reg × Word) → ProcState
  | [] => p
  | (i, v) :: rest => (if i = 15#4 then p else p.setBankReg m i v).writeRegs m rest

/-- The word loaded for R15, if it is in the list. -/
def pcValue : List (Reg × Word) → Option Word
  | [] => none
  | (i, v) :: rest => if i = 15#4 then some v else pcValue rest

/-! ### LDM -/

/-- Whether LDM with W = 1 writes the base back (R239): always if Rn is not in the list; if it is, never on B, and on A
when it is the only register listed or not the highest. -/
def ldmWritesBase (p : Proc) (rn : Reg) (regs : List Reg) : Bool :=
  !regs.contains rn ||
    (match p with
    | .A => regs == [rn] || regs.getLast? != some rn
    | .B => false)

/-- The bus work of an LDM, its registers written to the bank of mode m, the base written back, one internal cycle
(R235, R236, R238, R239, R442): the values read, and the state. -/
def State.loadBlock (s : State) (m : BitVec 5) (p u w : Bool) (rn : Reg) (regs : List Reg) : BlockRead :=
  let base := s.cpu.gpr rn
  let size := blockSize regs
  let x := s.readBlock false (busOrder u (placed regs (blockLowest p u base size)))
  let s1 := x.s.withCpu (·.writeRegs m x.values)
  let s2 := if w && ldmWritesBase s.cur rn regs then s1.setGpr rn (blockNewBase u base size) else s1
  ⟨x.values, s2.charge 1⟩

/-- An empty list and Rn = 15 are refused (R237). -/
def blockRefused (rn : Reg) (regs : List Reg) : Bool := regs.isEmpty || rn == 15#4

/-- LDM (R238, R240). -/
def execLdm (c : Cond) (p u w : Bool) (rn : Reg) (list : BitVec 16) (s : State) : Result :=
  ifPassed c s fun s =>
    if blockRefused rn (regsOf list) then fatal s
    else
      let x := s.loadBlock s.cpu.cpsr.m p u w rn (regsOf list)
      match pcValue x.values with
      | some v => .next (x.s.loadPc v)
      | none => .next x.s.advanceArm

/-- LDM with the S bit: with R15 listed the status-restore-and-jump (R244), without it a transfer to the user bank, the base
in the current mode's bank (R243). -/
def execLdmS (c : Cond) (p u w : Bool) (rn : Reg) (list : BitVec 16) (s : State) : Result :=
  ifPassed c s fun s =>
    if blockRefused rn (regsOf list) then fatal s
    else
      let m := if list.getLsbD 15 then s.cpu.cpsr.m else Mode.usr.bits
      let x := s.loadBlock m p u w rn (regsOf list)
      match pcValue x.values with
      | some v => x.s.statusRestoreJump v
      | none => .next x.s.advanceArm

/-! ### STM -/

/-- The value stored for the base register when it is listed and W = 1 (R242): the original base if it is the lowest
listed, the written-back value otherwise. -/
def storedBase (rn : Reg) (regs : List Reg) (base newBase : Word) : Word :=
  if regs.head? = some rn then base else newBase

/-- The value STM stores for register i, read in the bank of mode m (R241 to R243). The rule for the base in the list is
about the base's own register: in a user-bank transfer from a mode that has its own, the listed register is another. -/
def State.stmValue (s : State) (m : BitVec 5) (w : Bool) (rn : Reg) (regs : List Reg) (newBase : Word) (i : Reg) : Word :=
  if i = 15#4 then s.cpu.pc + s.cfg.storePcOffset
  else if w ∧ i = rn ∧ bank m i = bank s.cpu.cpsr.m rn then storedBase rn regs (s.cpu.gpr rn) newBase
  else s.cpu.bankReg m i

/-- The bus work of an STM, then the base (R235, R236, R241). -/
def State.storeBlock (s : State) (m : BitVec 5) (p u w : Bool) (rn : Reg) (regs : List Reg) : State :=
  let base := s.cpu.gpr rn
  let size := blockSize regs
  let newBase := blockNewBase u base size
  let s1 := s.writeBlock (s.stmValue m w rn regs newBase) false
    (busOrder u (placed regs (blockLowest p u base size)))
  if w then s1.setGpr rn newBase else s1

/-- STM (R241). -/
def execStm (c : Cond) (p u w : Bool) (rn : Reg) (list : BitVec 16) (s : State) : Result :=
  ifPassed c s fun s =>
    if blockRefused rn (regsOf list) then fatal s
    else .next (s.storeBlock s.cpu.cpsr.m p u w rn (regsOf list)).advanceArm

/-- STM with the S bit: the registers of the user bank (R243). -/
def execStmS (c : Cond) (p u w : Bool) (rn : Reg) (list : BitVec 16) (s : State) : Result :=
  ifPassed c s fun s =>
    if blockRefused rn (regsOf list) then fatal s
    else .next (s.storeBlock Mode.usr.bits p u w rn (regsOf list)).advanceArm

end Sys2Proof.Machine
end

