-- ==== Sys2Proof/Machine/Branch.lean ====
section
/-! DEFINITION. ARM branches and the software interrupt (44_arm_branch_psr_coproc.md sections 1 and 2). -/

namespace Sys2Proof.Machine

/-- sext_32(offset24) << 2 (R260). -/
def branchOffset (off24 : BitVec 24) : Word := off24.signExtend 32 <<< 2

/-- B (R260). -/
def execB (c : Cond) (off24 : BitVec 24) (s : State) : Result :=
  ifPassed c s fun s => .next (s.jumpTo false (s.cpu.pc + 8#32 + branchOffset off24))

/-- BL (R261). -/
def execBl (c : Cond) (off24 : BitVec 24) (s : State) : Result :=
  ifPassed c s fun s =>
    .next ((s.setGpr 14#4 (s.cpu.pc + 4#32)).jumpTo false (s.cpu.pc + 8#32 + branchOffset off24))

/-- BX (R262). -/
def execBx (c : Cond) (rm : Reg) (s : State) : Result :=
  ifPassed c s fun s => .next (s.interwork (s.cpu.armReg rm))

/-- BLX, register (R263, A only): Rm is read before R14 is written; Rm = 15 is refused. -/
def execBlxReg (c : Cond) (rm : Reg) (s : State) : Result :=
  onlyIfA s fun s => ifPassed c s fun s =>
    if rm = 15#4 then fatal s
    else .next ((s.setGpr 14#4 (s.cpu.pc + 4#32)).interwork (s.cpu.gpr rm))

/-- BLX, immediate (R264, A only), unconditional. -/
def execBlxImm (h : Bool) (off24 : BitVec 24) (s : State) : Result :=
  onlyIfA s fun s =>
    .next (((s.setGpr 14#4 (s.cpu.pc + 4#32)).withCpu (·.setT true)).jumpTo true
      (s.cpu.pc + 8#32 + branchOffset off24 + (if h then 2#32 else 0#32)))

/-- SWI (R265): the call number offered to the host is bits 23:16 (R410). -/
def execSwi (c : Cond) (comment24 : BitVec 24) (s : State) : Result :=
  ifPassed c s fun s => .next (s.softwareInterrupt (comment24.extractLsb' 16 8) (s.cpu.pc + 4#32))

end Sys2Proof.Machine
end

