-- ==== Sys2Proof/Machine/Coprocessor.lean ====
section
/-! DEFINITION. The coprocessor protocol of A (44_arm_branch_psr_coproc.md section 4), the encodings this core does not
implement (R126, R279), and BKPT and PLD (section 5). -/

namespace Sys2Proof.Machine

/-- A move to or from the system-control coprocessor may run: on A, number 15, in a privileged mode (R275). On B, which has
no coprocessor (R5), none may (R126). -/
def coprocessorAllowed (cp : Reg) (s : State) : Bool :=
  s.cur == .A && cp == 15#4 && s.cpu.cpsr.m != Mode.usr.bits

/-- MRC (R276): the collaborator's value goes to Rd; with Rd = 15 its top four bits go to N, Z, C and V. One internal cycle
(R442). -/
def execMrc (c : Cond) (opc1 : BitVec 3) (crn rd cp : Reg) (opc2 : BitVec 3) (crm : Reg) (s : State) : Result :=
  ifPassed c s fun s =>
    if coprocessorAllowed cp s then
      let x := s.ask (.moveFrom opc1 crn opc2 crm)
      let v := x.reply.value
      .next ((x.s.applyCalls .coprocessor x.reply.calls).withCpu fun p =>
        ((if rd = 15#4 then p.setFlags ⟨v.getLsbD 31, v.getLsbD 30, v.getLsbD 29, v.getLsbD 28⟩
          else p.setGpr rd v).charge 1).advance 4#32)
    else fatal s

/-- The wait-for-interrupt operation: (opc1, CRn, CRm, opc2) is (0, 7, 0, 4) or (0, 7, 8, 2) (R277). -/
def isWaitForInterrupt (opc1 : BitVec 3) (crn : Reg) (opc2 : BitVec 3) (crm : Reg) : Bool :=
  opc1 == 0#3 && crn == 7#4 && ((crm == 0#4 && opc2 == 4#3) || (crm == 8#4 && opc2 == 2#3))

/-- MCR (R277): the collaborator gets R[Rd]; the wait-for-interrupt operation halts A after the call (R391). One internal
cycle (R442). -/
def execMcr (c : Cond) (opc1 : BitVec 3) (crn rd cp : Reg) (opc2 : BitVec 3) (crm : Reg) (s : State) : Result :=
  ifPassed c s fun s =>
    if coprocessorAllowed cp s ∧ rd ≠ 15#4 then
      let x := s.ask (.moveTo opc1 crn (s.cpu.gpr rd) opc2 crm)
      .next ((x.s.applyCalls .coprocessor x.reply.calls).withCpu fun p =>
        ProcState.advance { p.charge 1 with halted := p.halted || isWaitForInterrupt opc1 crn opc2 crm } 4#32)
    else fatal s

/-- CDP: not implemented, Fatal(Unsupported) when its condition passes (R126, R279). -/
def execCdp (c : Cond) (_opc1 : BitVec 4) (_crn _crd _cp : Reg) (_opc2 : BitVec 3) (_crm : Reg) (s : State) : Result :=
  ifPassed c s fatal

/-- MCRR and MRRC: not implemented, Fatal(Unsupported) when the condition passes (R126, R279). -/
def execMcrrMrrc (c : Cond) (_l : Bool) (_rn _rd _cp : Reg) (_opc : BitVec 4) (_crm : Reg) (s : State) : Result :=
  ifPassed c s fatal

/-- LDC and STC: not implemented, Fatal(Unsupported) when the condition passes (R126, R279). -/
def execLdcStc (c : Cond) (_p _u _n _w _l : Bool) (_rn _crd _cp : Reg) (_off8 : BitVec 8) (s : State) : Result :=
  ifPassed c s fatal

/-- BKPT (R281, A only): Fatal(Unsupported) when its condition passes (R126). -/
def execBkpt (c : Cond) (_imm12 : BitVec 12) (_imm4 : BitVec 4) (s : State) : Result :=
  onlyIfA s fun s => ifPassed c s fatal

/-- PLD (R282, A only), by PLD_POLICY: Fatal(Unsupported), or nothing but the pc. -/
def execPld (_i _u : Bool) (_rn : Reg) (_off12 : BitVec 12) (s : State) : Result :=
  onlyIfA s fun s =>
    match s.cfg.pldPolicy with
    | .fatal => fatal s
    | .nop => .next s.advanceArm

end Sys2Proof.Machine
end

