-- ==== Sys2Proof/Machine/DataProcessing.lean ====
section
/-! DEFINITION. ARM data processing (41_arm_data_processing.md): operand fetch (R160), the flags (R161), the result or the
jump (R163, R164), the cost (R181), and one meaning for each opcode and operand form. -/

namespace Sys2Proof.Machine

/-- TST, TEQ, CMP and CMN write no register (R163). -/
def AluOp.isTest : AluOp → Bool
  | .tst | .teq | .cmp | .cmn => true
  | _ => false

/-- TST or TEQ, which write the carry of a rotated immediate only if IMM_CARRY_TEST says so (R161). -/
def AluOp.isFlagsTest : AluOp → Bool
  | .tst | .teq => true
  | _ => false

/-- The carry an immediate operand gives the opcode (R139, R161). -/
def State.immCarry (s : State) (op : AluOp) (rot : BitVec 4) (imm8 : BitVec 8) : Bool :=
  if op.isFlagsTest && !s.cfg.immCarryTest then s.cpu.cpsr.c else (immOperand rot imm8 s.cpu.cpsr.c).c

/-- Write a result to Rd (R163): with Rd = 15 the write is a jump in ARM state (S = 0) or the status-restore-and-jump
(S = 1, R164), and no flag of the operation is written. -/
def writeResult (sf : Bool) (rd : Reg) (x : AluResult) (s : State) : Result :=
  if rd = 15#4 then if sf then s.statusRestoreJump x.r else .next (s.jumpTo false x.r)
  else .next (s.withCpu fun p => ((p.setGpr rd x.r).setFlagsIf sf x.flags).advance 4#32)

/-- The flags of a test opcode, and nothing else (R163). -/
def writeFlags (x : AluResult) (s : State) : Result := .next (s.withCpu fun p => (p.setFlags x.flags).advance 4#32)

/-- Finish an opcode on first operand a and shifter operand b (R163). -/
def finishDp (op : AluOp) (sf : Bool) (rd : Reg) (a : Word) (b : Shifted) (s : State) : Result :=
  let x := alu op a b.r b.c s.cpu.cpsr.flags
  if op.isTest then writeFlags x s else writeResult sf rd x s

/-- The immediate form (R160). -/
def dpImm (op : AluOp) (sf : Bool) (rn rd : Reg) (rot : BitVec 4) (imm8 : BitVec 8) (s : State) : Result :=
  finishDp op sf rd (s.cpu.armReg rn) ⟨rotatedImm rot imm8, s.immCarry op rot imm8⟩ s

/-- The immediate-shift form (R160). -/
def dpRsi (op : AluOp) (sf : Bool) (rn rd : Reg) (sh : BitVec 5) (ty : ShiftType) (rm : Reg) (s : State) : Result :=
  finishDp op sf rd (s.cpu.armReg rn) (shiftImm (s.cpu.armReg rm) ty sh s.cpu.cpsr.c) s

/-- The register-shift form (R160, R162): Rs = 15 is refused; one internal cycle (R181). -/
def dpRsr (op : AluOp) (sf : Bool) (rn rd rs : Reg) (ty : ShiftType) (rm : Reg) (s : State) : Result :=
  if rs = 15#4 then fatal s
  else
    finishDp op sf rd (s.shiftReg rn) (shiftBy (s.shiftReg rm) ty (s.cpu.shiftAmount rs) s.cpu.cpsr.c) (s.charge 1)

/-! ### The meanings -/

/-- AND, immediate (R165). -/
def execAndImm (c : Cond) (sf : Bool) (rn rd : Reg) (rot : BitVec 4) (imm8 : BitVec 8) (s : State) : Result :=
  ifPassed c s (dpImm .and sf rn rd rot imm8)

/-- AND, immediate shift (R165). -/
def execAndRsi (c : Cond) (sf : Bool) (rn rd : Reg) (sh : BitVec 5) (ty : ShiftType) (rm : Reg) (s : State) : Result :=
  ifPassed c s (dpRsi .and sf rn rd sh ty rm)

/-- AND, register shift (R165). -/
def execAndRsr (c : Cond) (sf : Bool) (rn rd : Reg) (rs : Reg) (ty : ShiftType) (rm : Reg) (s : State) : Result :=
  ifPassed c s (dpRsr .and sf rn rd rs ty rm)

/-- EOR, immediate (R166). -/
def execEorImm (c : Cond) (sf : Bool) (rn rd : Reg) (rot : BitVec 4) (imm8 : BitVec 8) (s : State) : Result :=
  ifPassed c s (dpImm .eor sf rn rd rot imm8)

/-- EOR, immediate shift (R166). -/
def execEorRsi (c : Cond) (sf : Bool) (rn rd : Reg) (sh : BitVec 5) (ty : ShiftType) (rm : Reg) (s : State) : Result :=
  ifPassed c s (dpRsi .eor sf rn rd sh ty rm)

/-- EOR, register shift (R166). -/
def execEorRsr (c : Cond) (sf : Bool) (rn rd : Reg) (rs : Reg) (ty : ShiftType) (rm : Reg) (s : State) : Result :=
  ifPassed c s (dpRsr .eor sf rn rd rs ty rm)

/-- SUB, immediate (R167). -/
def execSubImm (c : Cond) (sf : Bool) (rn rd : Reg) (rot : BitVec 4) (imm8 : BitVec 8) (s : State) : Result :=
  ifPassed c s (dpImm .sub sf rn rd rot imm8)

/-- SUB, immediate shift (R167). -/
def execSubRsi (c : Cond) (sf : Bool) (rn rd : Reg) (sh : BitVec 5) (ty : ShiftType) (rm : Reg) (s : State) : Result :=
  ifPassed c s (dpRsi .sub sf rn rd sh ty rm)

/-- SUB, register shift (R167). -/
def execSubRsr (c : Cond) (sf : Bool) (rn rd : Reg) (rs : Reg) (ty : ShiftType) (rm : Reg) (s : State) : Result :=
  ifPassed c s (dpRsr .sub sf rn rd rs ty rm)

/-- RSB, immediate (R168). -/
def execRsbImm (c : Cond) (sf : Bool) (rn rd : Reg) (rot : BitVec 4) (imm8 : BitVec 8) (s : State) : Result :=
  ifPassed c s (dpImm .rsb sf rn rd rot imm8)

/-- RSB, immediate shift (R168). -/
def execRsbRsi (c : Cond) (sf : Bool) (rn rd : Reg) (sh : BitVec 5) (ty : ShiftType) (rm : Reg) (s : State) : Result :=
  ifPassed c s (dpRsi .rsb sf rn rd sh ty rm)

/-- RSB, register shift (R168). -/
def execRsbRsr (c : Cond) (sf : Bool) (rn rd : Reg) (rs : Reg) (ty : ShiftType) (rm : Reg) (s : State) : Result :=
  ifPassed c s (dpRsr .rsb sf rn rd rs ty rm)

/-- ADD, immediate (R169). -/
def execAddImm (c : Cond) (sf : Bool) (rn rd : Reg) (rot : BitVec 4) (imm8 : BitVec 8) (s : State) : Result :=
  ifPassed c s (dpImm .add sf rn rd rot imm8)

/-- ADD, immediate shift (R169). -/
def execAddRsi (c : Cond) (sf : Bool) (rn rd : Reg) (sh : BitVec 5) (ty : ShiftType) (rm : Reg) (s : State) : Result :=
  ifPassed c s (dpRsi .add sf rn rd sh ty rm)

/-- ADD, register shift (R169). -/
def execAddRsr (c : Cond) (sf : Bool) (rn rd : Reg) (rs : Reg) (ty : ShiftType) (rm : Reg) (s : State) : Result :=
  ifPassed c s (dpRsr .add sf rn rd rs ty rm)

/-- ADC, immediate (R170). -/
def execAdcImm (c : Cond) (sf : Bool) (rn rd : Reg) (rot : BitVec 4) (imm8 : BitVec 8) (s : State) : Result :=
  ifPassed c s (dpImm .adc sf rn rd rot imm8)

/-- ADC, immediate shift (R170). -/
def execAdcRsi (c : Cond) (sf : Bool) (rn rd : Reg) (sh : BitVec 5) (ty : ShiftType) (rm : Reg) (s : State) : Result :=
  ifPassed c s (dpRsi .adc sf rn rd sh ty rm)

/-- ADC, register shift (R170). -/
def execAdcRsr (c : Cond) (sf : Bool) (rn rd : Reg) (rs : Reg) (ty : ShiftType) (rm : Reg) (s : State) : Result :=
  ifPassed c s (dpRsr .adc sf rn rd rs ty rm)

/-- SBC, immediate (R171). -/
def execSbcImm (c : Cond) (sf : Bool) (rn rd : Reg) (rot : BitVec 4) (imm8 : BitVec 8) (s : State) : Result :=
  ifPassed c s (dpImm .sbc sf rn rd rot imm8)

/-- SBC, immediate shift (R171). -/
def execSbcRsi (c : Cond) (sf : Bool) (rn rd : Reg) (sh : BitVec 5) (ty : ShiftType) (rm : Reg) (s : State) : Result :=
  ifPassed c s (dpRsi .sbc sf rn rd sh ty rm)

/-- SBC, register shift (R171). -/
def execSbcRsr (c : Cond) (sf : Bool) (rn rd : Reg) (rs : Reg) (ty : ShiftType) (rm : Reg) (s : State) : Result :=
  ifPassed c s (dpRsr .sbc sf rn rd rs ty rm)

/-- RSC, immediate (R172). -/
def execRscImm (c : Cond) (sf : Bool) (rn rd : Reg) (rot : BitVec 4) (imm8 : BitVec 8) (s : State) : Result :=
  ifPassed c s (dpImm .rsc sf rn rd rot imm8)

/-- RSC, immediate shift (R172). -/
def execRscRsi (c : Cond) (sf : Bool) (rn rd : Reg) (sh : BitVec 5) (ty : ShiftType) (rm : Reg) (s : State) : Result :=
  ifPassed c s (dpRsi .rsc sf rn rd sh ty rm)

/-- RSC, register shift (R172). -/
def execRscRsr (c : Cond) (sf : Bool) (rn rd : Reg) (rs : Reg) (ty : ShiftType) (rm : Reg) (s : State) : Result :=
  ifPassed c s (dpRsr .rsc sf rn rd rs ty rm)

/-- TST, immediate (R173; flags only, the Rd field ignored). -/
def execTstImm (c : Cond) (rn : Reg) (rot : BitVec 4) (imm8 : BitVec 8) (s : State) : Result :=
  ifPassed c s (dpImm .tst true rn 0#4 rot imm8)

/-- TST, immediate shift (R173; flags only, the Rd field ignored). -/
def execTstRsi (c : Cond) (rn : Reg) (sh : BitVec 5) (ty : ShiftType) (rm : Reg) (s : State) : Result :=
  ifPassed c s (dpRsi .tst true rn 0#4 sh ty rm)

/-- TST, register shift (R173; flags only, the Rd field ignored). -/
def execTstRsr (c : Cond) (rn : Reg) (rs : Reg) (ty : ShiftType) (rm : Reg) (s : State) : Result :=
  ifPassed c s (dpRsr .tst true rn 0#4 rs ty rm)

/-- TEQ, immediate (R174; flags only, the Rd field ignored). -/
def execTeqImm (c : Cond) (rn : Reg) (rot : BitVec 4) (imm8 : BitVec 8) (s : State) : Result :=
  ifPassed c s (dpImm .teq true rn 0#4 rot imm8)

/-- TEQ, immediate shift (R174; flags only, the Rd field ignored). -/
def execTeqRsi (c : Cond) (rn : Reg) (sh : BitVec 5) (ty : ShiftType) (rm : Reg) (s : State) : Result :=
  ifPassed c s (dpRsi .teq true rn 0#4 sh ty rm)

/-- TEQ, register shift (R174; flags only, the Rd field ignored). -/
def execTeqRsr (c : Cond) (rn : Reg) (rs : Reg) (ty : ShiftType) (rm : Reg) (s : State) : Result :=
  ifPassed c s (dpRsr .teq true rn 0#4 rs ty rm)

/-- CMP, immediate (R175; flags only, the Rd field ignored). -/
def execCmpImm (c : Cond) (rn : Reg) (rot : BitVec 4) (imm8 : BitVec 8) (s : State) : Result :=
  ifPassed c s (dpImm .cmp true rn 0#4 rot imm8)

/-- CMP, immediate shift (R175; flags only, the Rd field ignored). -/
def execCmpRsi (c : Cond) (rn : Reg) (sh : BitVec 5) (ty : ShiftType) (rm : Reg) (s : State) : Result :=
  ifPassed c s (dpRsi .cmp true rn 0#4 sh ty rm)

/-- CMP, register shift (R175; flags only, the Rd field ignored). -/
def execCmpRsr (c : Cond) (rn : Reg) (rs : Reg) (ty : ShiftType) (rm : Reg) (s : State) : Result :=
  ifPassed c s (dpRsr .cmp true rn 0#4 rs ty rm)

/-- CMN, immediate (R176; flags only, the Rd field ignored). -/
def execCmnImm (c : Cond) (rn : Reg) (rot : BitVec 4) (imm8 : BitVec 8) (s : State) : Result :=
  ifPassed c s (dpImm .cmn true rn 0#4 rot imm8)

/-- CMN, immediate shift (R176; flags only, the Rd field ignored). -/
def execCmnRsi (c : Cond) (rn : Reg) (sh : BitVec 5) (ty : ShiftType) (rm : Reg) (s : State) : Result :=
  ifPassed c s (dpRsi .cmn true rn 0#4 sh ty rm)

/-- CMN, register shift (R176; flags only, the Rd field ignored). -/
def execCmnRsr (c : Cond) (rn : Reg) (rs : Reg) (ty : ShiftType) (rm : Reg) (s : State) : Result :=
  ifPassed c s (dpRsr .cmn true rn 0#4 rs ty rm)

/-- ORR, immediate (R177). -/
def execOrrImm (c : Cond) (sf : Bool) (rn rd : Reg) (rot : BitVec 4) (imm8 : BitVec 8) (s : State) : Result :=
  ifPassed c s (dpImm .orr sf rn rd rot imm8)

/-- ORR, immediate shift (R177). -/
def execOrrRsi (c : Cond) (sf : Bool) (rn rd : Reg) (sh : BitVec 5) (ty : ShiftType) (rm : Reg) (s : State) : Result :=
  ifPassed c s (dpRsi .orr sf rn rd sh ty rm)

/-- ORR, register shift (R177). -/
def execOrrRsr (c : Cond) (sf : Bool) (rn rd : Reg) (rs : Reg) (ty : ShiftType) (rm : Reg) (s : State) : Result :=
  ifPassed c s (dpRsr .orr sf rn rd rs ty rm)

/-- MOV, immediate (R178; Rn ignored). -/
def execMovImm (c : Cond) (sf : Bool) (rd : Reg) (rot : BitVec 4) (imm8 : BitVec 8) (s : State) : Result :=
  ifPassed c s (dpImm .mov sf 0#4 rd rot imm8)

/-- MOV, immediate shift (R178; Rn ignored). -/
def execMovRsi (c : Cond) (sf : Bool) (rd : Reg) (sh : BitVec 5) (ty : ShiftType) (rm : Reg) (s : State) : Result :=
  ifPassed c s (dpRsi .mov sf 0#4 rd sh ty rm)

/-- MOV, register shift (R178; Rn ignored). -/
def execMovRsr (c : Cond) (sf : Bool) (rd : Reg) (rs : Reg) (ty : ShiftType) (rm : Reg) (s : State) : Result :=
  ifPassed c s (dpRsr .mov sf 0#4 rd rs ty rm)

/-- BIC, immediate (R179). -/
def execBicImm (c : Cond) (sf : Bool) (rn rd : Reg) (rot : BitVec 4) (imm8 : BitVec 8) (s : State) : Result :=
  ifPassed c s (dpImm .bic sf rn rd rot imm8)

/-- BIC, immediate shift (R179). -/
def execBicRsi (c : Cond) (sf : Bool) (rn rd : Reg) (sh : BitVec 5) (ty : ShiftType) (rm : Reg) (s : State) : Result :=
  ifPassed c s (dpRsi .bic sf rn rd sh ty rm)

/-- BIC, register shift (R179). -/
def execBicRsr (c : Cond) (sf : Bool) (rn rd : Reg) (rs : Reg) (ty : ShiftType) (rm : Reg) (s : State) : Result :=
  ifPassed c s (dpRsr .bic sf rn rd rs ty rm)

/-- MVN, immediate (R180; Rn ignored). -/
def execMvnImm (c : Cond) (sf : Bool) (rd : Reg) (rot : BitVec 4) (imm8 : BitVec 8) (s : State) : Result :=
  ifPassed c s (dpImm .mvn sf 0#4 rd rot imm8)

/-- MVN, immediate shift (R180; Rn ignored). -/
def execMvnRsi (c : Cond) (sf : Bool) (rd : Reg) (sh : BitVec 5) (ty : ShiftType) (rm : Reg) (s : State) : Result :=
  ifPassed c s (dpRsi .mvn sf 0#4 rd sh ty rm)

/-- MVN, register shift (R180; Rn ignored). -/
def execMvnRsr (c : Cond) (sf : Bool) (rd : Reg) (rs : Reg) (ty : ShiftType) (rm : Reg) (s : State) : Result :=
  ifPassed c s (dpRsr .mvn sf 0#4 rd rs ty rm)

end Sys2Proof.Machine
end

