-- ==== Sys2Proof/Machine/Multiply.lean ====
section
/-! DEFINITION. Multiplies, signed halfword multiplies, saturating arithmetic and CLZ (42_arm_multiply_misc.md), with their
internal cycles (R442). All sources are read before any destination is written (R190). -/

namespace Sys2Proof.Machine

/-! ### Shared -/

/-- The carry a flag-setting multiply leaves: C as it is on A, a free value on B (R191, D23). -/
def State.multiplyCarry (s : State) : Bool :=
  match s.cur with
  | .A => s.cpu.cpsr.c
  | .B => Config.freeCarry s.draws

/-- The draw of that free value is spent if the instruction sets flags on B. -/
def State.spendCarry (s : State) (sf : Bool) : State :=
  match s.cur, sf with
  | .B, true => { s with draws := s.draws + 1 }
  | _, _ => s

/-- m, the cycles of a multiplier operand (R442): the bytes above the first that are not all zeros, or for a signed
multiply all ones, make it longer. -/
def multiplierCycles (signed : Bool) (x : Word) : Nat :=
  if x.extractLsb' 8 24 = 0#24 ∨ (signed ∧ x.extractLsb' 8 24 = BitVec.allOnes 24) then 1
  else if x.extractLsb' 16 16 = 0#16 ∨ (signed ∧ x.extractLsb' 16 16 = BitVec.allOnes 16) then 2
  else if x.extractLsb' 24 8 = 0#8 ∨ (signed ∧ x.extractLsb' 24 8 = BitVec.allOnes 8) then 3
  else 4

/-- Some of the registers is R15, which the instructions of this file refuse (R190). -/
def anyPc (rs : List Reg) : Bool := rs.contains 15#4

/-- Write a 32-bit product (R192): N and Z from it, C by R191, V unchanged. -/
def finishMul (sf : Bool) (rd : Reg) (r : Word) (cycles : Nat) (s : State) : Result :=
  .next ((s.spendCarry sf).withCpu fun p =>
    (((p.setGpr rd r).setFlagsIf sf (resultFlags r s.multiplyCarry p.cpsr.v)).charge cycles).advance 4#32)

/-- Write a 64-bit product (R194): RdLo the low half, RdHi the high one; N and Z from all 64 bits. -/
def finishLong (sf : Bool) (rdHi rdLo : Reg) (r : BitVec 64) (cycles : Nat) (s : State) : Result :=
  .next ((s.spendCarry sf).withCpu fun p =>
    ((((p.setGpr rdLo (r.extractLsb' 0 32)).setGpr rdHi (r.extractLsb' 32 32)).setFlagsIf sf
      (longResultFlags r s.multiplyCarry p.cpsr.v)).charge cycles).advance 4#32)

/-- The 64-bit accumulator R[RdHi] : R[RdLo] (R195). -/
def ProcState.accumulator (p : ProcState) (rdHi rdLo : Reg) : BitVec 64 := p.gpr rdHi ++ p.gpr rdLo

/-- The four long multiplies: product and cycles as given, R15 and RdHi = RdLo refused (R190). -/
def longMultiply (sf : Bool) (rdHi rdLo rs rm : Reg) (r : BitVec 64) (cycles : Nat) (s : State) : Result :=
  if anyPc [rdHi, rdLo, rs, rm] ∨ rdHi = rdLo then fatal s else finishLong sf rdHi rdLo r cycles s

/-- half(v, t): the top or bottom half of a register, as a signed number. -/
def halfOf (v : Word) (top : Bool) : Int := if top then (v.extractLsb' 16 16).toInt else (v.extractLsb' 0 16).toInt

/-- Bits 47:16 of an exact product, as a signed 32-bit number (R199). -/
def productTop (prod : Int) : Word := (BitVec.ofInt 48 prod).extractLsb' 16 32

/-- Write a result that may set Q (R198, R203). -/
def finishSticky (rd : Reg) (x : Saturated) (cycles : Nat) (s : State) : Result :=
  .next (s.withCpu fun p => (((p.setGpr rd x.r).stickQ x.sat).charge cycles).advance 4#32)

/-- Write a result and no flag. -/
def finishPlain (rd : Reg) (r : Word) (cycles : Nat) (s : State) : Result :=
  .next (s.withCpu fun p => ((p.setGpr rd r).charge cycles).advance 4#32)

/-- SignedSat32 of a sum or difference, remembering an earlier saturation (R205). -/
def saturate (earlier : Bool) (x : Int) : Saturated := ⟨(signedSat32 x).r, earlier || (signedSat32 x).sat⟩

/-- The saturating instructions on A: R15 refused, Rd the result, Q if it saturated (R203). -/
def saturating (rn rd rm : Reg) (f : Word → Word → Saturated) (s : State) : Result :=
  if anyPc [rn, rd, rm] then fatal s else finishSticky rd (f (s.cpu.gpr rm) (s.cpu.gpr rn)) 0 s

/-- The number of leading zero bits among the low n bits of v (R207). -/
def leadingZeros (v : Word) : Nat → Nat
  | 0 => 0
  | n + 1 => if v.getLsbD n then 0 else leadingZeros v n + 1

/-! ### Multiply and multiply-accumulate -/

/-- MUL (R192). -/
def execMul (c : Cond) (sf : Bool) (rd rs rm : Reg) (s : State) : Result :=
  ifPassed c s fun s =>
    if anyPc [rd, rs, rm] then fatal s
    else finishMul sf rd (s.cpu.gpr rm * s.cpu.gpr rs) (multiplierCycles true (s.cpu.gpr rs)) s

/-- MLA (R193). -/
def execMla (c : Cond) (sf : Bool) (rd rn rs rm : Reg) (s : State) : Result :=
  ifPassed c s fun s =>
    if anyPc [rd, rn, rs, rm] then fatal s
    else
      finishMul sf rd (s.cpu.gpr rm * s.cpu.gpr rs + s.cpu.gpr rn) (multiplierCycles true (s.cpu.gpr rs) + 1) s

/-- UMULL (R194). -/
def execUmull (c : Cond) (sf : Bool) (rdHi rdLo rs rm : Reg) (s : State) : Result :=
  ifPassed c s fun s =>
    longMultiply sf rdHi rdLo rs rm ((s.cpu.gpr rm).setWidth 64 * (s.cpu.gpr rs).setWidth 64)
      (multiplierCycles false (s.cpu.gpr rs) + 1) s

/-- UMLAL (R195). -/
def execUmlal (c : Cond) (sf : Bool) (rdHi rdLo rs rm : Reg) (s : State) : Result :=
  ifPassed c s fun s =>
    longMultiply sf rdHi rdLo rs rm
      ((s.cpu.gpr rm).setWidth 64 * (s.cpu.gpr rs).setWidth 64 + s.cpu.accumulator rdHi rdLo)
      (multiplierCycles false (s.cpu.gpr rs) + 2) s

/-- SMULL (R196). -/
def execSmull (c : Cond) (sf : Bool) (rdHi rdLo rs rm : Reg) (s : State) : Result :=
  ifPassed c s fun s =>
    longMultiply sf rdHi rdLo rs rm ((s.cpu.gpr rm).signExtend 64 * (s.cpu.gpr rs).signExtend 64)
      (multiplierCycles true (s.cpu.gpr rs) + 1) s

/-- SMLAL (R197). -/
def execSmlal (c : Cond) (sf : Bool) (rdHi rdLo rs rm : Reg) (s : State) : Result :=
  ifPassed c s fun s =>
    longMultiply sf rdHi rdLo rs rm
      ((s.cpu.gpr rm).signExtend 64 * (s.cpu.gpr rs).signExtend 64 + s.cpu.accumulator rdHi rdLo)
      (multiplierCycles true (s.cpu.gpr rs) + 2) s

/-! ### Signed halfword multiplies (A only) -/

/-- SMLAxy (R198). -/
def execSmlaXy (c : Cond) (rd rn rs : Reg) (y x : Bool) (rm : Reg) (s : State) : Result :=
  onlyIfA s fun s => ifPassed c s fun s =>
    if anyPc [rd, rn, rs, rm] then fatal s
    else
      finishSticky rd
        (wrapSigned32 (halfOf (s.cpu.gpr rm) x * halfOf (s.cpu.gpr rs) y + (s.cpu.gpr rn).toInt)) 1 s

/-- SMLAWy (R199). -/
def execSmlawY (c : Cond) (rd rn rs : Reg) (y : Bool) (rm : Reg) (s : State) : Result :=
  onlyIfA s fun s => ifPassed c s fun s =>
    if anyPc [rd, rn, rs, rm] then fatal s
    else
      finishSticky rd
        (wrapSigned32
          ((productTop ((s.cpu.gpr rm).toInt * halfOf (s.cpu.gpr rs) y)).toInt + (s.cpu.gpr rn).toInt)) 1 s

/-- SMULWy (R200); the Rn field is not looked at (R190). -/
def execSmulwY (c : Cond) (rd rs : Reg) (y : Bool) (rm : Reg) (s : State) : Result :=
  onlyIfA s fun s => ifPassed c s fun s =>
    if anyPc [rd, rs, rm] then fatal s
    else finishPlain rd (productTop ((s.cpu.gpr rm).toInt * halfOf (s.cpu.gpr rs) y)) 1 s

/-- SMLALxy (R201): the 64-bit accumulate wraps, no flag. -/
def execSmlalXy (c : Cond) (rdHi rdLo rs : Reg) (y x : Bool) (rm : Reg) (s : State) : Result :=
  onlyIfA s fun s => ifPassed c s fun s =>
    longMultiply false rdHi rdLo rs rm
      (s.cpu.accumulator rdHi rdLo + BitVec.ofInt 64 (halfOf (s.cpu.gpr rm) x * halfOf (s.cpu.gpr rs) y)) 2 s

/-- SMULxy (R202); the Rn field is not looked at (R190). -/
def execSmulXy (c : Cond) (rd rs : Reg) (y x : Bool) (rm : Reg) (s : State) : Result :=
  onlyIfA s fun s => ifPassed c s fun s =>
    if anyPc [rd, rs, rm] then fatal s
    else finishPlain rd (BitVec.ofInt 32 (halfOf (s.cpu.gpr rm) x * halfOf (s.cpu.gpr rs) y)) 1 s

/-! ### Saturating arithmetic and CLZ (A only) -/

/-- QADD (R203). -/
def execQadd (c : Cond) (rn rd rm : Reg) (s : State) : Result :=
  onlyIfA s fun s => ifPassed c s (saturating rn rd rm fun m n => saturate false (m.toInt + n.toInt))

/-- QSUB (R204). -/
def execQsub (c : Cond) (rn rd rm : Reg) (s : State) : Result :=
  onlyIfA s fun s => ifPassed c s (saturating rn rd rm fun m n => saturate false (m.toInt - n.toInt))

/-- QDADD (R205): the doubling saturates by itself. -/
def execQdadd (c : Cond) (rn rd rm : Reg) (s : State) : Result :=
  onlyIfA s fun s => ifPassed c s (saturating rn rd rm fun m n =>
    let d := signedSat32 (2 * n.toInt)
    saturate d.sat (m.toInt + d.r.toInt))

/-- QDSUB (R206). -/
def execQdsub (c : Cond) (rn rd rm : Reg) (s : State) : Result :=
  onlyIfA s fun s => ifPassed c s (saturating rn rd rm fun m n =>
    let d := signedSat32 (2 * n.toInt)
    saturate d.sat (m.toInt - d.r.toInt))

/-- CLZ (R207). -/
def execClz (c : Cond) (rd rm : Reg) (s : State) : Result :=
  onlyIfA s fun s => ifPassed c s fun s =>
    if anyPc [rd, rm] then fatal s
    else finishPlain rd (BitVec.ofNat 32 (leadingZeros (s.cpu.gpr rm) 32)) 0 s

end Sys2Proof.Machine
end

