-- ==== Sys2Proof/Machine/Status.lean ====
section
/-! DEFINITION. Status-register access (44_arm_branch_psr_coproc.md section 3). -/

namespace Sys2Proof.Machine

/-- MRS (R266): Rd = 15 is refused; the SPSR of USR or SYS is Fatal(InvalidState) (R39). -/
def execMrs (c : Cond) (r : Bool) (rd : Reg) (s : State) : Result :=
  ifPassed c s fun s =>
    if rd = 15#4 then fatal s
    else if r then
      match s.cpu.spsr.get? s.cpu.cpsr.m with
      | none => inconsistent s
      | some saved => .next (s.withCpu fun p => (p.setGpr rd saved.toWord).advance 4#32)
    else .next (s.withCpu fun p => (p.setGpr rd p.cpsr.toWord).advance 4#32)

/-- The bits of CPSR an MSR writes: in USR mode only the flag byte (R267, R268). -/
def ProcState.cpsrMask (p : ProcState) (mask : BitVec 4) : Word :=
  if p.cpsr.m = Mode.usr.bits then msrByteMask mask &&& 0xF8000000#32 else msrByteMask mask

/-- MSR to CPSR (R268): a change of T is Fatal(Unsupported) (R271), an invalid mode Fatal(InvalidState) (R39). -/
def msrCpsr (mask : BitVec 4) (v : Word) (s : State) : Result :=
  let new := s.cpu.cpsr.masked (s.cpu.cpsrMask mask) v
  if new.t ≠ s.cpu.cpsr.t then fatal s
  else if modeValid new.m then .next (s.withCpu fun p => ProcState.advance { p with cpsr := new } 4#32)
  else inconsistent s

/-- MSR to SPSR (R269): the SPSR of USR or SYS is Fatal(InvalidState); no mode is checked here. -/
def msrSpsr (mask : BitVec 4) (v : Word) (s : State) : Result :=
  match s.cpu.spsr.get? s.cpu.cpsr.m with
  | none => inconsistent s
  | some saved =>
    .next (s.withCpu fun p =>
      ProcState.advance { p with spsr := p.spsr.put p.cpsr.m (saved.masked (msrByteMask mask) v) } 4#32)

/-- MSR, register, to CPSR (R268): Rm = 15 is refused (R267). -/
def execMsrRegCpsr (c : Cond) (mask : BitVec 4) (rm : Reg) (s : State) : Result :=
  ifPassed c s fun s => if rm = 15#4 then fatal s else msrCpsr mask (s.cpu.gpr rm) s

/-- MSR, register, to SPSR (R269): Rm = 15 is refused (R267). -/
def execMsrRegSpsr (c : Cond) (mask : BitVec 4) (rm : Reg) (s : State) : Result :=
  ifPassed c s fun s => if rm = 15#4 then fatal s else msrSpsr mask (s.cpu.gpr rm) s

/-- MSR, immediate (R270). -/
def execMsrImm (c : Cond) (r : Bool) (mask rot : BitVec 4) (imm8 : BitVec 8) (s : State) : Result :=
  ifPassed c s fun s => if r then msrSpsr mask (rotatedImm rot imm8) s else msrCpsr mask (rotatedImm rot imm8) s

end Sys2Proof.Machine
end

