-- ==== Sys2Proof/Machine/ThumbAlu.lean ====
section
/-! DEFINITION. Thumb formats 1 to 4, the arithmetic of format 5, and formats 12 and 13 (45_thumb_1.md, 46_thumb_2.md), over
the shifter and flag engine of ARM data processing. -/

namespace Sys2Proof.Machine

/-! ### Shared -/

/-- R[i] of a 3-bit register field (R52). -/
abbrev ProcState.low (p : ProcState) (i : LowReg) : Word := p.gpr (wide i)

/-- Write Rd and the four flags, and some internal cycles. -/
def thumbWrite (rd : LowReg) (x : AluResult) (cycles : Nat) (s : State) : Result :=
  .next (s.withCpu fun p => (((p.setGpr (wide rd) x.r).setFlags x.flags).charge cycles).advance 2#32)

/-- Write the four flags only. -/
def thumbFlags (x : AluResult) (s : State) : Result := .next (s.withCpu fun p => (p.setFlags x.flags).advance 2#32)

/-- An opcode of the flag engine on a and b, the shifter carry being C itself. -/
def State.thumbAlu (s : State) (op : AluOp) (a b : Word) : AluResult := alu op a b s.cpu.cpsr.c s.cpu.cpsr.flags

/-- A shifted value as a result: N, Z from it, C the shifter carry, V unchanged (R290). -/
def State.thumbShift (s : State) (x : Shifted) : AluResult := alu .mov 0#32 x.r x.c s.cpu.cpsr.flags

/-- Write a register and no flag. -/
def thumbPlain (rd : Reg) (v : Word) (s : State) : Result :=
  .next (s.withCpu fun p => (p.setGpr rd v).advance 2#32)

/-- Write register d of format 5: R15 is a jump that stays in Thumb state (R317, R319, D40). -/
def thumbHighWrite (d : Reg) (v : Word) (s : State) : Result :=
  if d = 15#4 then .next (s.jumpTo true v) else thumbPlain d v s

/-- A word offset field: the number of words times 4. -/
def wordOffset (n : Nat) : Word := BitVec.ofNat 32 (4 * n)

/-! ### Format 1 -/

/-- T_LSL_imm (R290). -/
def execTLslImm (off5 : BitVec 5) (rs rd : LowReg) (s : State) : Result :=
  thumbWrite rd (s.thumbShift (shiftImm (s.cpu.low rs) .lsl off5 s.cpu.cpsr.c)) 0 s

/-- T_LSR_imm (R291). -/
def execTLsrImm (off5 : BitVec 5) (rs rd : LowReg) (s : State) : Result :=
  thumbWrite rd (s.thumbShift (shiftImm (s.cpu.low rs) .lsr off5 s.cpu.cpsr.c)) 0 s

/-- T_ASR_imm (R292). -/
def execTAsrImm (off5 : BitVec 5) (rs rd : LowReg) (s : State) : Result :=
  thumbWrite rd (s.thumbShift (shiftImm (s.cpu.low rs) .asr off5 s.cpu.cpsr.c)) 0 s

/-! ### Format 2 -/

/-- T_ADD_reg (R293). -/
def execTAddReg (rn rs rd : LowReg) (s : State) : Result :=
  thumbWrite rd (s.thumbAlu .add (s.cpu.low rs) (s.cpu.low rn)) 0 s

/-- T_SUB_reg (R294). -/
def execTSubReg (rn rs rd : LowReg) (s : State) : Result :=
  thumbWrite rd (s.thumbAlu .sub (s.cpu.low rs) (s.cpu.low rn)) 0 s

/-- T_ADD_imm3 (R295). -/
def execTAddImm3 (off3 : BitVec 3) (rs rd : LowReg) (s : State) : Result :=
  thumbWrite rd (s.thumbAlu .add (s.cpu.low rs) (off3.setWidth 32)) 0 s

/-- T_SUB_imm3 (R296). -/
def execTSubImm3 (off3 : BitVec 3) (rs rd : LowReg) (s : State) : Result :=
  thumbWrite rd (s.thumbAlu .sub (s.cpu.low rs) (off3.setWidth 32)) 0 s

/-! ### Format 3 -/

/-- T_MOV_imm (R297): C and V unchanged. -/
def execTMovImm (rd : LowReg) (off8 : BitVec 8) (s : State) : Result :=
  thumbWrite rd (s.thumbAlu .mov 0#32 (off8.setWidth 32)) 0 s

/-- T_CMP_imm (R298). -/
def execTCmpImm (rd : LowReg) (off8 : BitVec 8) (s : State) : Result :=
  thumbFlags (s.thumbAlu .cmp (s.cpu.low rd) (off8.setWidth 32)) s

/-- T_ADD_imm8 (R299). -/
def execTAddImm8 (rd : LowReg) (off8 : BitVec 8) (s : State) : Result :=
  thumbWrite rd (s.thumbAlu .add (s.cpu.low rd) (off8.setWidth 32)) 0 s

/-- T_SUB_imm8 (R300). -/
def execTSubImm8 (rd : LowReg) (off8 : BitVec 8) (s : State) : Result :=
  thumbWrite rd (s.thumbAlu .sub (s.cpu.low rd) (off8.setWidth 32)) 0 s

/-! ### Format 4 -/

/-- T_AND (R301). -/
def execTAnd (rs rd : LowReg) (s : State) : Result :=
  thumbWrite rd (s.thumbAlu .and (s.cpu.low rd) (s.cpu.low rs)) 0 s

/-- T_EOR (R302). -/
def execTEor (rs rd : LowReg) (s : State) : Result :=
  thumbWrite rd (s.thumbAlu .eor (s.cpu.low rd) (s.cpu.low rs)) 0 s

/-- T_LSL_reg (R303): one internal cycle. -/
def execTLslReg (rs rd : LowReg) (s : State) : Result :=
  thumbWrite rd (s.thumbShift (shiftBy (s.cpu.low rd) .lsl (s.cpu.shiftAmount (wide rs)) s.cpu.cpsr.c)) 1 s

/-- T_LSR_reg (R304): one internal cycle. -/
def execTLsrReg (rs rd : LowReg) (s : State) : Result :=
  thumbWrite rd (s.thumbShift (shiftBy (s.cpu.low rd) .lsr (s.cpu.shiftAmount (wide rs)) s.cpu.cpsr.c)) 1 s

/-- T_ASR_reg (R305): one internal cycle. -/
def execTAsrReg (rs rd : LowReg) (s : State) : Result :=
  thumbWrite rd (s.thumbShift (shiftBy (s.cpu.low rd) .asr (s.cpu.shiftAmount (wide rs)) s.cpu.cpsr.c)) 1 s

/-- T_ADC (R306). -/
def execTAdc (rs rd : LowReg) (s : State) : Result :=
  thumbWrite rd (s.thumbAlu .adc (s.cpu.low rd) (s.cpu.low rs)) 0 s

/-- T_SBC (R307). -/
def execTSbc (rs rd : LowReg) (s : State) : Result :=
  thumbWrite rd (s.thumbAlu .sbc (s.cpu.low rd) (s.cpu.low rs)) 0 s

/-- T_ROR (R308): one internal cycle. -/
def execTRor (rs rd : LowReg) (s : State) : Result :=
  thumbWrite rd (s.thumbShift (shiftBy (s.cpu.low rd) .ror (s.cpu.shiftAmount (wide rs)) s.cpu.cpsr.c)) 1 s

/-- T_TST (R309). -/
def execTTst (rs rd : LowReg) (s : State) : Result :=
  thumbFlags (s.thumbAlu .tst (s.cpu.low rd) (s.cpu.low rs)) s

/-- T_NEG (R310): 0 - R[Rs]. -/
def execTNeg (rs rd : LowReg) (s : State) : Result :=
  thumbWrite rd (s.thumbAlu .rsb (s.cpu.low rs) 0#32) 0 s

/-- T_CMP_reg (R311). -/
def execTCmpReg (rs rd : LowReg) (s : State) : Result :=
  thumbFlags (s.thumbAlu .cmp (s.cpu.low rd) (s.cpu.low rs)) s

/-- T_CMN (R312). -/
def execTCmn (rs rd : LowReg) (s : State) : Result :=
  thumbFlags (s.thumbAlu .cmn (s.cpu.low rd) (s.cpu.low rs)) s

/-- T_ORR (R313). -/
def execTOrr (rs rd : LowReg) (s : State) : Result :=
  thumbWrite rd (s.thumbAlu .orr (s.cpu.low rd) (s.cpu.low rs)) 0 s

/-- T_MUL (R314): C by R191; m internal cycles, the multiplier operand being R[Rs] (R442). -/
def execTMul (rs rd : LowReg) (s : State) : Result :=
  let r := s.cpu.low rd * s.cpu.low rs
  thumbWrite rd ⟨r, resultFlags r s.multiplyCarry s.cpu.cpsr.v⟩ (multiplierCycles true (s.cpu.low rs)) (s.spendCarry true)

/-- T_BIC (R315). -/
def execTBic (rs rd : LowReg) (s : State) : Result :=
  thumbWrite rd (s.thumbAlu .bic (s.cpu.low rd) (s.cpu.low rs)) 0 s

/-- T_MVN (R316). -/
def execTMvn (rs rd : LowReg) (s : State) : Result :=
  thumbWrite rd (s.thumbAlu .mvn 0#32 (s.cpu.low rs)) 0 s

/-! ### Format 5, arithmetic -/

/-- T_ADD_hi (R317): no flags. -/
def execTAddHi (rs rd : Reg) (s : State) : Result := thumbHighWrite rd (s.cpu.thumbReg rd + s.cpu.thumbReg rs) s

/-- T_CMP_hi (R318). -/
def execTCmpHi (rs rd : Reg) (s : State) : Result :=
  thumbFlags (s.thumbAlu .cmp (s.cpu.thumbReg rd) (s.cpu.thumbReg rs)) s

/-- T_MOV_hi (R319): no flags. -/
def execTMovHi (rs rd : Reg) (s : State) : Result := thumbHighWrite rd (s.cpu.thumbReg rs) s

/-! ### Formats 12 and 13 -/

/-- T_ADD_pc (R342): bit 1 of pc + 4 is cleared. -/
def execTAddPc (rd : LowReg) (word8 : BitVec 8) (s : State) : Result :=
  thumbPlain (wide rd) (((s.cpu.pc + 4#32) &&& 0xFFFFFFFC#32) + wordOffset word8.toNat) s

/-- T_ADD_sp (R343). -/
def execTAddSp (rd : LowReg) (word8 : BitVec 8) (s : State) : Result :=
  thumbPlain (wide rd) (s.cpu.gpr 13#4 + wordOffset word8.toNat) s

/-- T_ADD_sp_imm (R344). -/
def execTAddSpImm (minus : Bool) (sword7 : BitVec 7) (s : State) : Result :=
  thumbPlain 13#4
    (if minus then s.cpu.gpr 13#4 - wordOffset sword7.toNat else s.cpu.gpr 13#4 + wordOffset sword7.toNat) s

end Sys2Proof.Machine
end

