-- ==== Sys2Proof/Machine/ThumbBranch.lean ====
section
/-! DEFINITION. Thumb branches, software interrupt and breakpoint: the exchanges of format 5, formats 16 to 19, BLX and BKPT
(45_thumb_1.md, 46_thumb_2.md). -/

namespace Sys2Proof.Machine

/-- The return address a Thumb call leaves: the next instruction with bit 0 set (R321, R361). -/
def ProcState.thumbLink (p : ProcState) : Word := (p.pc + 2#32) ||| 1#32

/-- T_BX (R320). -/
def execTBx (rs : Reg) (s : State) : Result := .next (s.interwork (s.cpu.thumbReg rs))

/-- T_BLX_reg (R321, A only): R15 is refused; the target is read before R14 is written. -/
def execTBlxReg (rs : Reg) (s : State) : Result :=
  onlyIfA s fun s =>
    if rs = 15#4 then fatal s else .next ((s.setGpr 14#4 s.cpu.thumbLink).interwork (s.cpu.gpr rs))

/-- T_Bcond (R349). -/
def execTBcond (c : Cond) (soff8 : BitVec 8) (s : State) : Result :=
  if condPassed c s.cpu.cpsr then .next (s.jumpTo true (s.cpu.pc + 4#32 + soff8.signExtend 32 <<< 1))
  else .next s.advanceThumb

/-- T_SWI (R350): the call number offered to the host is the whole field (R410). -/
def execTSwi (value8 : BitVec 8) (s : State) : Result := .next (s.softwareInterrupt value8 (s.cpu.pc + 2#32))

/-- T_B (R351). -/
def execTB (off11 : BitVec 11) (s : State) : Result :=
  .next (s.jumpTo true (s.cpu.pc + 4#32 + off11.signExtend 32 <<< 1))

/-- T_BL_prefix (R360). -/
def execTBlPrefix (off11 : BitVec 11) (s : State) : Result :=
  .next (s.withCpu fun p => (p.setGpr 14#4 (p.pc + 4#32 + off11.signExtend 32 <<< 12)).advance 2#32)

/-- T_BL_suffix (R361): T stays 1. -/
def execTBlSuffix (off11 : BitVec 11) (s : State) : Result :=
  .next ((s.setGpr 14#4 s.cpu.thumbLink).jumpTo true (s.cpu.gpr 14#4 + off11.setWidth 32 <<< 1))

/-- T_BLX_suffix (R362, A only): T becomes 0. -/
def execTBlxSuffix (off11 : BitVec 11) (s : State) : Result :=
  onlyIfA s fun s =>
    .next (((s.setGpr 14#4 s.cpu.thumbLink).withCpu (·.setT false)).jumpTo false
      (s.cpu.gpr 14#4 + off11.setWidth 32 <<< 1))

/-- T_BKPT (R363): Fatal(Unsupported) on A, and an undefined word, just as fatal, on B. -/
def execTBkpt (_imm8 : BitVec 8) (s : State) : Result := fatal s

end Sys2Proof.Machine
end

