-- ==== Sys2Proof/Machine/ThumbMemory.lean ====
section
/-! DEFINITION. Thumb transfers: formats 6 to 11, 14 and 15 (45_thumb_1.md, 46_thumb_2.md). No flags are written, no access
traps (R337); a load costs one internal cycle (R442). -/

namespace Sys2Proof.Machine

/-! ### Shared -/

/-- Load Rd by f from an address. -/
def thumbLoad (f : State → Word → Access) (rd : LowReg) (addr : Word) (s : State) : Result :=
  let m := f s addr
  .next (m.s.withCpu fun p => ((p.setGpr (wide rd) m.v).charge 1).advance 2#32)

/-- Store the low part of Rd at an address. -/
def thumbStore (w : Width) (rd : LowReg) (addr : Word) (s : State) : Result :=
  .next (s.store addr w (s.cpu.low rd)).advanceThumb

/-- The address R[Rb] + R[Ro] of formats 7 and 8. -/
def State.registerSum (s : State) (ro rb : LowReg) : Word := s.cpu.low rb + s.cpu.low ro

/-! ### Format 6 -/

/-- T_LDR_pc (R322). -/
def execTLdrPc (rd : LowReg) (word8 : BitVec 8) (s : State) : Result :=
  thumbLoad State.loadWordRotated rd (((s.cpu.pc + 4#32) &&& 0xFFFFFFFC#32) + wordOffset word8.toNat) s

/-! ### Formats 7 and 8 -/

/-- T_STR_reg (R323). -/
def execTStrReg (ro rb rd : LowReg) (s : State) : Result := thumbStore .word rd (s.registerSum ro rb) s

/-- T_STRB_reg (R324). -/
def execTStrbReg (ro rb rd : LowReg) (s : State) : Result := thumbStore .byte rd (s.registerSum ro rb) s

/-- T_LDR_reg (R325). -/
def execTLdrReg (ro rb rd : LowReg) (s : State) : Result := thumbLoad State.loadWordRotated rd (s.registerSum ro rb) s

/-- T_LDRB_reg (R326). -/
def execTLdrbReg (ro rb rd : LowReg) (s : State) : Result := thumbLoad State.loadByte rd (s.registerSum ro rb) s

/-- T_STRH_reg (R327). -/
def execTStrhReg (ro rb rd : LowReg) (s : State) : Result := thumbStore .half rd (s.registerSum ro rb) s

/-- T_LDRH_reg (R328). -/
def execTLdrhReg (ro rb rd : LowReg) (s : State) : Result := thumbLoad State.loadHalf rd (s.registerSum ro rb) s

/-- T_LDSB_reg (R329). -/
def execTLdsbReg (ro rb rd : LowReg) (s : State) : Result := thumbLoad State.loadSignedByte rd (s.registerSum ro rb) s

/-- T_LDSH_reg (R330). -/
def execTLdshReg (ro rb rd : LowReg) (s : State) : Result := thumbLoad State.loadSignedHalf rd (s.registerSum ro rb) s

/-! ### Formats 9 and 10 -/

/-- T_STR_imm (R331). -/
def execTStrImm (off5 : BitVec 5) (rb rd : LowReg) (s : State) : Result :=
  thumbStore .word rd (s.cpu.low rb + wordOffset off5.toNat) s

/-- T_LDR_imm (R332). -/
def execTLdrImm (off5 : BitVec 5) (rb rd : LowReg) (s : State) : Result :=
  thumbLoad State.loadWordRotated rd (s.cpu.low rb + wordOffset off5.toNat) s

/-- T_STRB_imm (R333). -/
def execTStrbImm (off5 : BitVec 5) (rb rd : LowReg) (s : State) : Result :=
  thumbStore .byte rd (s.cpu.low rb + off5.setWidth 32) s

/-- T_LDRB_imm (R334). -/
def execTLdrbImm (off5 : BitVec 5) (rb rd : LowReg) (s : State) : Result :=
  thumbLoad State.loadByte rd (s.cpu.low rb + off5.setWidth 32) s

/-- T_STRH_imm (R335). -/
def execTStrhImm (off5 : BitVec 5) (rb rd : LowReg) (s : State) : Result :=
  thumbStore .half rd (s.cpu.low rb + BitVec.ofNat 32 (2 * off5.toNat)) s

/-- T_LDRH_imm (R336). -/
def execTLdrhImm (off5 : BitVec 5) (rb rd : LowReg) (s : State) : Result :=
  thumbLoad State.loadHalf rd (s.cpu.low rb + BitVec.ofNat 32 (2 * off5.toNat)) s

/-! ### Format 11 -/

/-- T_STR_sp (R340). -/
def execTStrSp (rd : LowReg) (word8 : BitVec 8) (s : State) : Result :=
  thumbStore .word rd (s.cpu.gpr 13#4 + wordOffset word8.toNat) s

/-- T_LDR_sp (R341). -/
def execTLdrSp (rd : LowReg) (word8 : BitVec 8) (s : State) : Result :=
  thumbLoad State.loadWordRotated rd (s.cpu.gpr 13#4 + wordOffset word8.toNat) s

/-! ### Formats 14 and 15 -/

/-- The list of a PUSH: R0 to R7, and LR if R (R345). -/
def pushList (r : Bool) (rlist : BitVec 8) : BitVec 16 := 0#1 ++ BitVec.ofBool r ++ 0#6 ++ rlist

/-- The list of a POP: R0 to R7, and PC if R (R346). -/
def popList (r : Bool) (rlist : BitVec 8) : BitVec 16 := BitVec.ofBool r ++ 0#7 ++ rlist

/-- The list of format 15. -/
def lowList (rlist : BitVec 8) : BitVec 16 := rlist.setWidth 16

/-- T_PUSH (R345): STMDB SP!; an empty list is refused (D28). -/
def execTPush (r : Bool) (rlist : BitVec 8) (s : State) : Result :=
  if (regsOf (pushList r rlist)).isEmpty then fatal s
  else .next (s.storeBlock s.cpu.cpsr.m true false true 13#4 (regsOf (pushList r rlist))).advanceThumb

/-- T_POP (R346): LDMIA SP!; the word for PC interworks on A and stays in Thumb state on B. -/
def execTPop (r : Bool) (rlist : BitVec 8) (s : State) : Result :=
  if (regsOf (popList r rlist)).isEmpty then fatal s
  else
    let x := s.loadBlock s.cpu.cpsr.m false true true 13#4 (regsOf (popList r rlist))
    match pcValue x.values, s.cur with
    | some v, .A => .next (x.s.interwork v)
    | some v, .B => .next (x.s.jumpTo true v)
    | none, _ => .next x.s.advanceThumb

/-- T_STMIA (R347). -/
def execTStmia (rb : LowReg) (rlist : BitVec 8) (s : State) : Result :=
  if (regsOf (lowList rlist)).isEmpty then fatal s
  else .next (s.storeBlock s.cpu.cpsr.m false true true (wide rb) (regsOf (lowList rlist))).advanceThumb

/-- T_LDMIA (R348): no writeback if Rb is listed, on both processors (D29). -/
def execTLdmia (rb : LowReg) (rlist : BitVec 8) (s : State) : Result :=
  if (regsOf (lowList rlist)).isEmpty then fatal s
  else
    let regs := regsOf (lowList rlist)
    .next (s.loadBlock s.cpu.cpsr.m false true (!regs.contains (wide rb)) (wide rb) regs).s.advanceThumb

end Sys2Proof.Machine
end

