-- ==== Sys2Proof/Machine/Dispatch.lean ====
section
/-! DEFINITION. The dispatch: one arm per instruction, each one direct call of its meaning (R402). -/

namespace Sys2Proof.Machine

/-- What an instruction does, run by the processor State.cur at its pc (R402: execute cls). -/
def exec (i : Instr) (s : State) : Host.Outcome State Fault Refusal :=
  match i with
  | .andImm c sf rn rd rot imm8 => Sys2Proof.Machine.execAndImm c sf rn rd rot imm8 s
  | .andRsi c sf rn rd sh ty rm => Sys2Proof.Machine.execAndRsi c sf rn rd sh ty rm s
  | .andRsr c sf rn rd rs ty rm => Sys2Proof.Machine.execAndRsr c sf rn rd rs ty rm s
  | .eorImm c sf rn rd rot imm8 => Sys2Proof.Machine.execEorImm c sf rn rd rot imm8 s
  | .eorRsi c sf rn rd sh ty rm => Sys2Proof.Machine.execEorRsi c sf rn rd sh ty rm s
  | .eorRsr c sf rn rd rs ty rm => Sys2Proof.Machine.execEorRsr c sf rn rd rs ty rm s
  | .subImm c sf rn rd rot imm8 => Sys2Proof.Machine.execSubImm c sf rn rd rot imm8 s
  | .subRsi c sf rn rd sh ty rm => Sys2Proof.Machine.execSubRsi c sf rn rd sh ty rm s
  | .subRsr c sf rn rd rs ty rm => Sys2Proof.Machine.execSubRsr c sf rn rd rs ty rm s
  | .rsbImm c sf rn rd rot imm8 => Sys2Proof.Machine.execRsbImm c sf rn rd rot imm8 s
  | .rsbRsi c sf rn rd sh ty rm => Sys2Proof.Machine.execRsbRsi c sf rn rd sh ty rm s
  | .rsbRsr c sf rn rd rs ty rm => Sys2Proof.Machine.execRsbRsr c sf rn rd rs ty rm s
  | .addImm c sf rn rd rot imm8 => Sys2Proof.Machine.execAddImm c sf rn rd rot imm8 s
  | .addRsi c sf rn rd sh ty rm => Sys2Proof.Machine.execAddRsi c sf rn rd sh ty rm s
  | .addRsr c sf rn rd rs ty rm => Sys2Proof.Machine.execAddRsr c sf rn rd rs ty rm s
  | .adcImm c sf rn rd rot imm8 => Sys2Proof.Machine.execAdcImm c sf rn rd rot imm8 s
  | .adcRsi c sf rn rd sh ty rm => Sys2Proof.Machine.execAdcRsi c sf rn rd sh ty rm s
  | .adcRsr c sf rn rd rs ty rm => Sys2Proof.Machine.execAdcRsr c sf rn rd rs ty rm s
  | .sbcImm c sf rn rd rot imm8 => Sys2Proof.Machine.execSbcImm c sf rn rd rot imm8 s
  | .sbcRsi c sf rn rd sh ty rm => Sys2Proof.Machine.execSbcRsi c sf rn rd sh ty rm s
  | .sbcRsr c sf rn rd rs ty rm => Sys2Proof.Machine.execSbcRsr c sf rn rd rs ty rm s
  | .rscImm c sf rn rd rot imm8 => Sys2Proof.Machine.execRscImm c sf rn rd rot imm8 s
  | .rscRsi c sf rn rd sh ty rm => Sys2Proof.Machine.execRscRsi c sf rn rd sh ty rm s
  | .rscRsr c sf rn rd rs ty rm => Sys2Proof.Machine.execRscRsr c sf rn rd rs ty rm s
  | .tstImm c rn rot imm8 => Sys2Proof.Machine.execTstImm c rn rot imm8 s
  | .tstRsi c rn sh ty rm => Sys2Proof.Machine.execTstRsi c rn sh ty rm s
  | .tstRsr c rn rs ty rm => Sys2Proof.Machine.execTstRsr c rn rs ty rm s
  | .teqImm c rn rot imm8 => Sys2Proof.Machine.execTeqImm c rn rot imm8 s
  | .teqRsi c rn sh ty rm => Sys2Proof.Machine.execTeqRsi c rn sh ty rm s
  | .teqRsr c rn rs ty rm => Sys2Proof.Machine.execTeqRsr c rn rs ty rm s
  | .cmpImm c rn rot imm8 => Sys2Proof.Machine.execCmpImm c rn rot imm8 s
  | .cmpRsi c rn sh ty rm => Sys2Proof.Machine.execCmpRsi c rn sh ty rm s
  | .cmpRsr c rn rs ty rm => Sys2Proof.Machine.execCmpRsr c rn rs ty rm s
  | .cmnImm c rn rot imm8 => Sys2Proof.Machine.execCmnImm c rn rot imm8 s
  | .cmnRsi c rn sh ty rm => Sys2Proof.Machine.execCmnRsi c rn sh ty rm s
  | .cmnRsr c rn rs ty rm => Sys2Proof.Machine.execCmnRsr c rn rs ty rm s
  | .orrImm c sf rn rd rot imm8 => Sys2Proof.Machine.execOrrImm c sf rn rd rot imm8 s
  | .orrRsi c sf rn rd sh ty rm => Sys2Proof.Machine.execOrrRsi c sf rn rd sh ty rm s
  | .orrRsr c sf rn rd rs ty rm => Sys2Proof.Machine.execOrrRsr c sf rn rd rs ty rm s
  | .movImm c sf rd rot imm8 => Sys2Proof.Machine.execMovImm c sf rd rot imm8 s
  | .movRsi c sf rd sh ty rm => Sys2Proof.Machine.execMovRsi c sf rd sh ty rm s
  | .movRsr c sf rd rs ty rm => Sys2Proof.Machine.execMovRsr c sf rd rs ty rm s
  | .bicImm c sf rn rd rot imm8 => Sys2Proof.Machine.execBicImm c sf rn rd rot imm8 s
  | .bicRsi c sf rn rd sh ty rm => Sys2Proof.Machine.execBicRsi c sf rn rd sh ty rm s
  | .bicRsr c sf rn rd rs ty rm => Sys2Proof.Machine.execBicRsr c sf rn rd rs ty rm s
  | .mvnImm c sf rd rot imm8 => Sys2Proof.Machine.execMvnImm c sf rd rot imm8 s
  | .mvnRsi c sf rd sh ty rm => Sys2Proof.Machine.execMvnRsi c sf rd sh ty rm s
  | .mvnRsr c sf rd rs ty rm => Sys2Proof.Machine.execMvnRsr c sf rd rs ty rm s
  | .mrs c r rd => Sys2Proof.Machine.execMrs c r rd s
  | .msrRegCpsr c mask rm => Sys2Proof.Machine.execMsrRegCpsr c mask rm s
  | .msrRegSpsr c mask rm => Sys2Proof.Machine.execMsrRegSpsr c mask rm s
  | .msrImm c r mask rot imm8 => Sys2Proof.Machine.execMsrImm c r mask rot imm8 s
  | .bx c rm => Sys2Proof.Machine.execBx c rm s
  | .blxReg c rm => Sys2Proof.Machine.execBlxReg c rm s
  | .clz c rd rm => Sys2Proof.Machine.execClz c rd rm s
  | .qadd c rn rd rm => Sys2Proof.Machine.execQadd c rn rd rm s
  | .qsub c rn rd rm => Sys2Proof.Machine.execQsub c rn rd rm s
  | .qdadd c rn rd rm => Sys2Proof.Machine.execQdadd c rn rd rm s
  | .qdsub c rn rd rm => Sys2Proof.Machine.execQdsub c rn rd rm s
  | .bkpt c imm12 imm4 => Sys2Proof.Machine.execBkpt c imm12 imm4 s
  | .smlaXy c rd rn rs y x rm => Sys2Proof.Machine.execSmlaXy c rd rn rs y x rm s
  | .smlawY c rd rn rs y rm => Sys2Proof.Machine.execSmlawY c rd rn rs y rm s
  | .smulwY c rd rs y rm => Sys2Proof.Machine.execSmulwY c rd rs y rm s
  | .smlalXy c rdHi rdLo rs y x rm => Sys2Proof.Machine.execSmlalXy c rdHi rdLo rs y x rm s
  | .smulXy c rd rs y x rm => Sys2Proof.Machine.execSmulXy c rd rs y x rm s
  | .mul c sf rd rs rm => Sys2Proof.Machine.execMul c sf rd rs rm s
  | .mla c sf rd rn rs rm => Sys2Proof.Machine.execMla c sf rd rn rs rm s
  | .umull c sf rdHi rdLo rs rm => Sys2Proof.Machine.execUmull c sf rdHi rdLo rs rm s
  | .umlal c sf rdHi rdLo rs rm => Sys2Proof.Machine.execUmlal c sf rdHi rdLo rs rm s
  | .smull c sf rdHi rdLo rs rm => Sys2Proof.Machine.execSmull c sf rdHi rdLo rs rm s
  | .smlal c sf rdHi rdLo rs rm => Sys2Proof.Machine.execSmlal c sf rdHi rdLo rs rm s
  | .swp c rn rd rm => Sys2Proof.Machine.execSwp c rn rd rm s
  | .swpb c rn rd rm => Sys2Proof.Machine.execSwpb c rn rd rm s
  | .ldrh c p u w rn rd off => Sys2Proof.Machine.execLdrh c p u w rn rd off s
  | .strh c p u w rn rd off => Sys2Proof.Machine.execStrh c p u w rn rd off s
  | .ldrsb c p u w rn rd off => Sys2Proof.Machine.execLdrsb c p u w rn rd off s
  | .ldrsh c p u w rn rd off => Sys2Proof.Machine.execLdrsh c p u w rn rd off s
  | .ldrd c p u w rn rd off => Sys2Proof.Machine.execLdrd c p u w rn rd off s
  | .strd c p u w rn rd off => Sys2Proof.Machine.execStrd c p u w rn rd off s
  | .ldrImm c p u w rn rd off12 => Sys2Proof.Machine.execLdrImm c p u w rn rd off12 s
  | .strImm c p u w rn rd off12 => Sys2Proof.Machine.execStrImm c p u w rn rd off12 s
  | .ldrbImm c p u w rn rd off12 => Sys2Proof.Machine.execLdrbImm c p u w rn rd off12 s
  | .strbImm c p u w rn rd off12 => Sys2Proof.Machine.execStrbImm c p u w rn rd off12 s
  | .ldrtImm c u rn rd off12 => Sys2Proof.Machine.execLdrtImm c u rn rd off12 s
  | .strtImm c u rn rd off12 => Sys2Proof.Machine.execStrtImm c u rn rd off12 s
  | .ldrbtImm c u rn rd off12 => Sys2Proof.Machine.execLdrbtImm c u rn rd off12 s
  | .strbtImm c u rn rd off12 => Sys2Proof.Machine.execStrbtImm c u rn rd off12 s
  | .ldrReg c p u w rn rd sh ty rm => Sys2Proof.Machine.execLdrReg c p u w rn rd sh ty rm s
  | .strReg c p u w rn rd sh ty rm => Sys2Proof.Machine.execStrReg c p u w rn rd sh ty rm s
  | .ldrbReg c p u w rn rd sh ty rm => Sys2Proof.Machine.execLdrbReg c p u w rn rd sh ty rm s
  | .strbReg c p u w rn rd sh ty rm => Sys2Proof.Machine.execStrbReg c p u w rn rd sh ty rm s
  | .ldrtReg c u rn rd sh ty rm => Sys2Proof.Machine.execLdrtReg c u rn rd sh ty rm s
  | .strtReg c u rn rd sh ty rm => Sys2Proof.Machine.execStrtReg c u rn rd sh ty rm s
  | .ldrbtReg c u rn rd sh ty rm => Sys2Proof.Machine.execLdrbtReg c u rn rd sh ty rm s
  | .strbtReg c u rn rd sh ty rm => Sys2Proof.Machine.execStrbtReg c u rn rd sh ty rm s
  | .ldm c p u w rn list => Sys2Proof.Machine.execLdm c p u w rn list s
  | .ldmS c p u w rn list => Sys2Proof.Machine.execLdmS c p u w rn list s
  | .stm c p u w rn list => Sys2Proof.Machine.execStm c p u w rn list s
  | .stmS c p u w rn list => Sys2Proof.Machine.execStmS c p u w rn list s
  | .b c off24 => Sys2Proof.Machine.execB c off24 s
  | .bl c off24 => Sys2Proof.Machine.execBl c off24 s
  | .blxImm h off24 => Sys2Proof.Machine.execBlxImm h off24 s
  | .pld ri u rn off12 => Sys2Proof.Machine.execPld ri u rn off12 s
  | .swi c comment24 => Sys2Proof.Machine.execSwi c comment24 s
  | .mcr c opc1 crn rd cp opc2 crm => Sys2Proof.Machine.execMcr c opc1 crn rd cp opc2 crm s
  | .mrc c opc1 crn rd cp opc2 crm => Sys2Proof.Machine.execMrc c opc1 crn rd cp opc2 crm s
  | .cdp c opc1 crn crd cp opc2 crm => Sys2Proof.Machine.execCdp c opc1 crn crd cp opc2 crm s
  | .mcrrMrrc c l rn rd cp opc crm => Sys2Proof.Machine.execMcrrMrrc c l rn rd cp opc crm s
  | .ldcStc c p u n w l rn crd cp off8 => Sys2Proof.Machine.execLdcStc c p u n w l rn crd cp off8 s
  | .tLslImm off5 rs rd => Sys2Proof.Machine.execTLslImm off5 rs rd s
  | .tLsrImm off5 rs rd => Sys2Proof.Machine.execTLsrImm off5 rs rd s
  | .tAsrImm off5 rs rd => Sys2Proof.Machine.execTAsrImm off5 rs rd s
  | .tAddReg rn rs rd => Sys2Proof.Machine.execTAddReg rn rs rd s
  | .tSubReg rn rs rd => Sys2Proof.Machine.execTSubReg rn rs rd s
  | .tAddImm3 off3 rs rd => Sys2Proof.Machine.execTAddImm3 off3 rs rd s
  | .tSubImm3 off3 rs rd => Sys2Proof.Machine.execTSubImm3 off3 rs rd s
  | .tMovImm rd off8 => Sys2Proof.Machine.execTMovImm rd off8 s
  | .tCmpImm rd off8 => Sys2Proof.Machine.execTCmpImm rd off8 s
  | .tAddImm8 rd off8 => Sys2Proof.Machine.execTAddImm8 rd off8 s
  | .tSubImm8 rd off8 => Sys2Proof.Machine.execTSubImm8 rd off8 s
  | .tAnd rs rd => Sys2Proof.Machine.execTAnd rs rd s
  | .tEor rs rd => Sys2Proof.Machine.execTEor rs rd s
  | .tLslReg rs rd => Sys2Proof.Machine.execTLslReg rs rd s
  | .tLsrReg rs rd => Sys2Proof.Machine.execTLsrReg rs rd s
  | .tAsrReg rs rd => Sys2Proof.Machine.execTAsrReg rs rd s
  | .tAdc rs rd => Sys2Proof.Machine.execTAdc rs rd s
  | .tSbc rs rd => Sys2Proof.Machine.execTSbc rs rd s
  | .tRor rs rd => Sys2Proof.Machine.execTRor rs rd s
  | .tTst rs rd => Sys2Proof.Machine.execTTst rs rd s
  | .tNeg rs rd => Sys2Proof.Machine.execTNeg rs rd s
  | .tCmpReg rs rd => Sys2Proof.Machine.execTCmpReg rs rd s
  | .tCmn rs rd => Sys2Proof.Machine.execTCmn rs rd s
  | .tOrr rs rd => Sys2Proof.Machine.execTOrr rs rd s
  | .tMul rs rd => Sys2Proof.Machine.execTMul rs rd s
  | .tBic rs rd => Sys2Proof.Machine.execTBic rs rd s
  | .tMvn rs rd => Sys2Proof.Machine.execTMvn rs rd s
  | .tAddHi rs rd => Sys2Proof.Machine.execTAddHi rs rd s
  | .tCmpHi rs rd => Sys2Proof.Machine.execTCmpHi rs rd s
  | .tMovHi rs rd => Sys2Proof.Machine.execTMovHi rs rd s
  | .tBx rs => Sys2Proof.Machine.execTBx rs s
  | .tBlxReg rs => Sys2Proof.Machine.execTBlxReg rs s
  | .tLdrPc rd word8 => Sys2Proof.Machine.execTLdrPc rd word8 s
  | .tStrReg ro rb rd => Sys2Proof.Machine.execTStrReg ro rb rd s
  | .tStrbReg ro rb rd => Sys2Proof.Machine.execTStrbReg ro rb rd s
  | .tLdrReg ro rb rd => Sys2Proof.Machine.execTLdrReg ro rb rd s
  | .tLdrbReg ro rb rd => Sys2Proof.Machine.execTLdrbReg ro rb rd s
  | .tStrhReg ro rb rd => Sys2Proof.Machine.execTStrhReg ro rb rd s
  | .tLdrhReg ro rb rd => Sys2Proof.Machine.execTLdrhReg ro rb rd s
  | .tLdsbReg ro rb rd => Sys2Proof.Machine.execTLdsbReg ro rb rd s
  | .tLdshReg ro rb rd => Sys2Proof.Machine.execTLdshReg ro rb rd s
  | .tStrImm off5 rb rd => Sys2Proof.Machine.execTStrImm off5 rb rd s
  | .tLdrImm off5 rb rd => Sys2Proof.Machine.execTLdrImm off5 rb rd s
  | .tStrbImm off5 rb rd => Sys2Proof.Machine.execTStrbImm off5 rb rd s
  | .tLdrbImm off5 rb rd => Sys2Proof.Machine.execTLdrbImm off5 rb rd s
  | .tStrhImm off5 rb rd => Sys2Proof.Machine.execTStrhImm off5 rb rd s
  | .tLdrhImm off5 rb rd => Sys2Proof.Machine.execTLdrhImm off5 rb rd s
  | .tStrSp rd word8 => Sys2Proof.Machine.execTStrSp rd word8 s
  | .tLdrSp rd word8 => Sys2Proof.Machine.execTLdrSp rd word8 s
  | .tAddPc rd word8 => Sys2Proof.Machine.execTAddPc rd word8 s
  | .tAddSp rd word8 => Sys2Proof.Machine.execTAddSp rd word8 s
  | .tAddSpImm minus sword7 => Sys2Proof.Machine.execTAddSpImm minus sword7 s
  | .tPush r rlist => Sys2Proof.Machine.execTPush r rlist s
  | .tPop r rlist => Sys2Proof.Machine.execTPop r rlist s
  | .tBkpt imm8 => Sys2Proof.Machine.execTBkpt imm8 s
  | .tStmia rb rlist => Sys2Proof.Machine.execTStmia rb rlist s
  | .tLdmia rb rlist => Sys2Proof.Machine.execTLdmia rb rlist s
  | .tBcond c soff8 => Sys2Proof.Machine.execTBcond c soff8 s
  | .tSwi value8 => Sys2Proof.Machine.execTSwi value8 s
  | .tB off11 => Sys2Proof.Machine.execTB off11 s
  | .tBlxSuffix off11 => Sys2Proof.Machine.execTBlxSuffix off11 s
  | .tBlPrefix off11 => Sys2Proof.Machine.execTBlPrefix off11 s
  | .tBlSuffix off11 => Sys2Proof.Machine.execTBlSuffix off11 s

end Sys2Proof.Machine
end

