-- ==== Sys2Proof/Machine/Scheduler.lean ====
section
/-! DEFINITION. The lockstep scheduler (60_exceptions.md section 6): which processor is behind, what happens next in an
iteration, the clock's advance, event dispatch, and the step of a halted processor (R392). The machine's step is one
processor step, one event dispatch or one advance, in the order R401 gives them. -/

namespace Sys2Proof.Machine

/-- The processor is behind the system timestamp (R400, R401): A's clock runs at twice the rate. -/
def State.behind (s : State) : Proc → Bool
  | .A => decide (s.cpus.a.ts < 2 * s.systemTs)
  | .B => decide (s.cpus.b.ts < s.systemTs)

/-! ### Events -/

/-- The event has been reached (R405). -/
def State.due (s : State) (e : Event) : Bool := decide (e.activation ≤ s.systemTs)

/-- Dispatched before: earlier activation, or the same and created before (R405, D44). -/
def Event.before (e f : Event) : Bool :=
  decide (e.activation < f.activation) || (e.activation == f.activation && decide (e.seq < f.seq))

/-- The first of some events in the order of dispatch. -/
def firstEvent : List Event → Option Event
  | [] => none
  | e :: rest =>
    match firstEvent rest with
    | none => some e
    | some f => if f.before e then some f else some e

/-- An event to dispatch, and the mark of the dispatch phase. -/
structure NextEvent where
  event : Event
  mark : Nat
deriving DecidableEq, Repr, Inhabited

/-- The next event of a dispatch phase (R405): among the due ones those created before the mark come first; when there is
none of them left, those scheduled meanwhile make up the next round of the same phase, in the same order among
themselves (DESIGN CHOICE, log entry 36). -/
def State.nextEvent (s : State) (mark : Nat) : Option NextEvent :=
  match firstEvent (s.events.filter fun e => s.due e && decide (e.seq < mark)) with
  | some e => some ⟨e, mark⟩
  | none =>
    match firstEvent (s.events.filter s.due) with
    | some e => some ⟨e, s.nextSeq⟩
    | none => none

/-- Dispatch an event: it leaves the queue (R404), its collaborator handles it. -/
def State.dispatchEvent (s : State) (x : NextEvent) : State :=
  let asked := State.ask { s with events := s.events.erase x.event, phase := .dispatch x.mark } (.event x.event.id)
  asked.s.applyCalls .event asked.reply.calls

/-! ### The iteration -/

/-- What the machine does next. -/
inductive Action where
  | run (p : Proc)
  | dispatch (x : NextEvent)
  | advance
deriving DecidableEq, Repr

/-- At the start of a catch-up round (R401): the first processor if it is behind, else the second if it is, else the
advance. -/
def State.roundAction (s : State) : Action :=
  if s.behind s.cfg.first then .run s.cfg.first
  else if s.behind s.cfg.first.other then .run s.cfg.first.other
  else .advance

/-- What the machine does next, by where it stands in its iteration (R401). -/
def State.action (s : State) : Action :=
  match s.phase with
  | .roundFirst => s.roundAction
  | .roundSecond => if s.behind s.cfg.first.other then .run s.cfg.first.other else s.roundAction
  | .dispatch mark =>
    match s.nextEvent mark with
    | some x => .dispatch x
    | none => s.roundAction

/-- Where the iteration stands after processor p has run (R401). -/
def State.phaseAfter (s : State) (p : Proc) : Phase := if p = s.cfg.first then .roundSecond else .roundFirst

/-- delta of R401: to the next event, but never more than SCHED_QUANTUM; 0 if an event is due already. -/
def State.clockAdvance (s : State) : Nat :=
  match firstEvent s.events with
  | none => s.cfg.schedQuantum.count
  | some e => if s.systemTs < e.activation then min s.cfg.schedQuantum.count (e.activation - s.systemTs) else 0

/-- The advance of the system timestamp, after which due events are dispatched (R401). -/
def State.advanceClock (s : State) : State :=
  { s with systemTs := s.systemTs + s.clockAdvance, phase := .dispatch s.nextSeq }

/-! ### A halted processor -/

/-- The running processor leaves Halted (R392). -/
def State.wake (s : State) : State := s.withCpu fun p => { p with halted := false }

/-- step_halted(p) (R392): one quantum; a pending interrupt wakes the processor whatever masks it, and vectors at once only if
VECTOR_ON_WAKE says so and nothing masks it. -/
def State.haltedStep (s : State) : State :=
  let s1 := s.charge (s.cfg.haltQuantum.get s.cur).count
  if s1.interruptPending then
    if s.cfg.vectorOnWake && s1.wake.irqDue then s1.wake.enterIrq else s1.wake
  else s1

end Sys2Proof.Machine
end

