-- ==== Sys2Proof/Machine/Run.lean ====
section
/-! DEFINITION. One step of a processor (R402): fetch (R70), decode, execute, and the interrupt poll after every retired
instruction; and what placing an instruction where the next fetch will find it takes. -/

namespace Sys2Proof.Machine

/-- The fetch (R70): a word at pc in ARM state, a halfword in Thumb state, through the bus and charged. -/
def State.fetch (s : State) : Access := s.load s.cpu.pc (if s.cpu.cpsr.t then .half else .word)

/-- The raw word the rest of the step executes and a fatal outcome names (R395). -/
def State.withIr (s : State) (w : Word) : State := { s with ir := w }

/-- A retired instruction is followed by the poll; a stop is a stop (R389, R402). -/
def retire : Result → Result
  | .next s => .next s.pollIrq
  | .fault f => .fault f
  | .refused r => .refused r

/-- Run what a fetch brought: an undefined word is Fatal(Unsupported) before any condition test (R125, R402). -/
def runFetched (t : Bool) (x : Access) : Result :=
  match decodeFetched x.s.cur t x.v with
  | .error _ => fatal (x.s.withIr x.v)
  | .ok i => retire (exec i (x.s.withIr x.v))

/-- The running processor's step (R402). -/
def State.processorStep (s : State) : Result :=
  if s.cpu.halted then .next s.haltedStep else runFetched s.cpu.cpsr.t s.fetch

/-- Processor p is the one whose step this is, and the iteration goes on behind it (R401). -/
def State.select (s : State) (p : Proc) : State := { s with cur := p, phase := s.phaseAfter p }

/-- Make a word's bytes readable at the fetch address of processor A: the map shows memory there, and memory holds the
bytes. -/
def State.placeAt (s : State) (addr : Word) (w : Width) (v : Word) : State :=
  let s1 : State :=
    if (cellsIn s.maps.a addr.toNat w.size).isSome then s
    else { s with maps := { s.maps with a := ⟨addr.toNat, w.size, some addr.toNat⟩ :: s.maps.a } }
  { s1 with mem := s1.mem.writeCells ((cellsIn s1.maps.a addr.toNat w.size).getD []) (bytesOf v w.size) }

/-- Make the next step a step of processor A in the given state: A is behind, first in the round, and not halted. -/
def State.letARun (s : State) (t : Bool) : State :=
  { s with
    cpus := { s.cpus with a := { s.cpus.a with halted := false, cpsr := { s.cpus.a.cpsr with t := t } } }
    systemTs := max s.systemTs (s.cpus.a.ts / 2 + 1)
    phase := if s.cfg.first = .A then .roundFirst else .roundSecond }

end Sys2Proof.Machine
end

