-- ==== Sys2Proof/Machine/Step.lean ====
section
/-! DEFINITION. The machine's step (R401, R402) and where a program is put for it to run. -/

namespace Sys2Proof.Machine

/-- One step of the machine: a processor's step, an event dispatch or the advance of the system timestamp (R401). -/
def step (s : State) : Host.Outcome State Fault Refusal :=
  match s.action with
  | .run p => (s.select p).processorStep
  | .dispatch x => .next (s.dispatchEvent x)
  | .advance => .next s.advanceClock

/-- The state in which the very next step is processor A's, fetching and running exactly this instruction: a word of at most
16 bits is a Thumb halfword, any other an ARM word (log entry 9). -/
def State.withFetchWord (s : State) (nbits w : Nat) : State :=
  let t := decide (nbits ≤ 16)
  let width : Width := if t then .half else .word
  (s.letARun t).placeAt (width.align s.cpus.a.pc) width (BitVec.ofNat 32 (if t then w % 65536 else w))

end Sys2Proof.Machine
end

