-- ==== Sys2Proof/Machine/Boot.lean ====
section
/-! DEFINITION. Direct boot (R422): the state in which a host starts a program without the boot ROM. Every value is an
argument; the spec's approximate defaults are given apart. -/

namespace Sys2Proof.Machine

/-- DIRECT_BOOT[p] (R12, R422, D14): the pc, R12, R14 and R13 of the user bank, R13 of IRQ and of SVC, and CPSR. -/
structure BootSeeds where
  pc : Word
  r12 : Word
  lrUsr : Word
  spUsr : Word
  spIrq : Word
  spSvc : Word
  cpsr : Psr
deriving DecidableEq, Repr, Inhabited

/-- The default CPSR of direct boot: 0x000000DF, SYS with I and F set (R422). -/
def Psr.boot : Psr := { Psr.reset with m := Mode.sys.bits }

/-- The defaults of R422 for an entry address, which is the pc, R12 and R14. -/
def BootSeeds.standard (p : Proc) (entry : Word) : BootSeeds :=
  match p with
  | .A => ⟨entry, entry, entry, 0x03002F7C#32, 0x03003F80#32, 0x03003FC0#32, Psr.boot⟩
  | .B => ⟨entry, entry, entry, 0x0380FD80#32, 0x0380FF80#32, 0x0380FFC0#32, Psr.boot⟩

/-- A processor after direct boot (R422): the reset state with the seeds in their places. -/
def ProcState.directBoot (p : Proc) (seeds : BootSeeds) : ProcState :=
  let r := ((ProcState.reset p).setBankReg Mode.usr.bits 12#4 seeds.r12).setBankReg Mode.usr.bits 14#4 seeds.lrUsr
  let r := (r.setBankReg Mode.usr.bits 13#4 seeds.spUsr).setBankReg Mode.irq.bits 13#4 seeds.spIrq
  { r.setBankReg Mode.svc.bits 13#4 seeds.spSvc with cpsr := seeds.cpsr, pc := seeds.pc }

/-- The machine after direct boot (R422): the reset state with both processors seeded. -/
def State.directBoot (seeds : Pair BootSeeds) : State :=
  { State.reset with cpus := ⟨ProcState.directBoot .A seeds.a, ProcState.directBoot .B seeds.b⟩ }

end Sys2Proof.Machine
end

