-- ==== Sys2Proof/Safety.lean ====
section
/-! DEFINITION. What claims are stated in: the machine's invariant, which the hardware's words imply and every step keeps,
which accesses meet plain memory, and what a run without a stop is. -/

namespace Sys2Proof.Machine

/-- The mode is one of the seven (R23, R28), and the pc is aligned for the instruction set in force (R30). -/
def ProcState.Legal (p : ProcState) : Prop :=
  modeValid p.cpsr.m = true ∧ alignPc p.cpsr.t p.pc = p.pc

/-- The machine's invariant: memory in its canonical form, both processors legal, and the event queue in the order of
creation, each event created before the next one to come (R404). -/
def State.Inv (s : State) : Prop :=
  Memory.wf s.mem ∧ (∀ p, (s.cpus.get p).Legal) ∧ s.events.Pairwise (fun e f => e.seq < f.seq) ∧
    ∀ e ∈ s.events, e.seq < s.nextSeq

/-- An instruction of the Thumb set (R90): its word is a halfword. -/
def isThumb (i : Instr) : Bool :=
  match encode i with
  | .arm _ => false
  | .thumb _ => true

/-- The cells an access at this address meets, if it meets memory alone (R61, R73): the running processor's bus shows memory
behind every byte of it. -/
def State.cellsAt (s : State) (addr : Word) (w : Width) : Option (List Nat) :=
  cellsIn (s.maps.get s.cur) (w.align addr).toNat w.size

/-- One byte as processor p reads it, where its bus shows memory (R60, R61). -/
def State.byteAt (s : State) (p : Proc) (addr : Nat) : Option Byte := (cellIn (s.maps.get p) addr).map s.mem.get

/-- A run of n steps without a stop. -/
def runsSafely (s : State) : Nat → Prop
  | 0 => True
  | n + 1 => ∃ s', step s = .next s' ∧ runsSafely s' n

/-! ### Vocabulary of the statements

What follows describes instructions a second time, for the statements of Certificates/: written from the rules, apart from the
meanings. -/

/-! #### Operand 2 and the data-processing instructions -/

/-- The three forms of operand 2 (R96, R160). -/
inductive Operand2 where
  | imm (rot : BitVec 4) (imm8 : BitVec 8)
  | rsi (sh : BitVec 5) (ty : ShiftType) (rm : Reg)
  | rsr (rs : Reg) (ty : ShiftType) (rm : Reg)
deriving DecidableEq, Repr

/-- A form that R160 does not refuse: Rs is not R15. -/
def Operand2.Allowed : Operand2 → Prop
  | .rsr rs _ _ => rs ≠ 15#4
  | _ => True

/-- The internal cycles of a form (R181, R442). -/
def Operand2.cycles : Operand2 → Nat
  | .rsr .. => 1
  | _ => 0

/-- The data-processing instruction of an opcode and a form: the row of R96. Tests have no S bit and no Rd, MOV and MVN no
Rn. -/
def dpInstr (op : AluOp) (c : Cond) (sf : Bool) (rn rd : Reg) : Operand2 → Instr
  | .imm rot imm8 =>
    match op with
    | .and => .andImm c sf rn rd rot imm8
    | .eor => .eorImm c sf rn rd rot imm8
    | .sub => .subImm c sf rn rd rot imm8
    | .rsb => .rsbImm c sf rn rd rot imm8
    | .add => .addImm c sf rn rd rot imm8
    | .adc => .adcImm c sf rn rd rot imm8
    | .sbc => .sbcImm c sf rn rd rot imm8
    | .rsc => .rscImm c sf rn rd rot imm8
    | .tst => .tstImm c rn rot imm8
    | .teq => .teqImm c rn rot imm8
    | .cmp => .cmpImm c rn rot imm8
    | .cmn => .cmnImm c rn rot imm8
    | .orr => .orrImm c sf rn rd rot imm8
    | .mov => .movImm c sf rd rot imm8
    | .bic => .bicImm c sf rn rd rot imm8
    | .mvn => .mvnImm c sf rd rot imm8
  | .rsi sh ty rm =>
    match op with
    | .and => .andRsi c sf rn rd sh ty rm
    | .eor => .eorRsi c sf rn rd sh ty rm
    | .sub => .subRsi c sf rn rd sh ty rm
    | .rsb => .rsbRsi c sf rn rd sh ty rm
    | .add => .addRsi c sf rn rd sh ty rm
    | .adc => .adcRsi c sf rn rd sh ty rm
    | .sbc => .sbcRsi c sf rn rd sh ty rm
    | .rsc => .rscRsi c sf rn rd sh ty rm
    | .tst => .tstRsi c rn sh ty rm
    | .teq => .teqRsi c rn sh ty rm
    | .cmp => .cmpRsi c rn sh ty rm
    | .cmn => .cmnRsi c rn sh ty rm
    | .orr => .orrRsi c sf rn rd sh ty rm
    | .mov => .movRsi c sf rd sh ty rm
    | .bic => .bicRsi c sf rn rd sh ty rm
    | .mvn => .mvnRsi c sf rd sh ty rm
  | .rsr rs ty rm =>
    match op with
    | .and => .andRsr c sf rn rd rs ty rm
    | .eor => .eorRsr c sf rn rd rs ty rm
    | .sub => .subRsr c sf rn rd rs ty rm
    | .rsb => .rsbRsr c sf rn rd rs ty rm
    | .add => .addRsr c sf rn rd rs ty rm
    | .adc => .adcRsr c sf rn rd rs ty rm
    | .sbc => .sbcRsr c sf rn rd rs ty rm
    | .rsc => .rscRsr c sf rn rd rs ty rm
    | .tst => .tstRsr c rn rs ty rm
    | .teq => .teqRsr c rn rs ty rm
    | .cmp => .cmpRsr c rn rs ty rm
    | .cmn => .cmnRsr c rn rs ty rm
    | .orr => .orrRsr c sf rn rd rs ty rm
    | .mov => .movRsr c sf rd rs ty rm
    | .bic => .bicRsr c sf rn rd rs ty rm
    | .mvn => .mvnRsr c sf rd rs ty rm

/-- RegOp(i, regshift) of R160: R15 is pc + 8, or pc + PC_REGSHIFT_OFFSET in the register-shift form. -/
def State.regOp (s : State) (i : Reg) (regshift : Bool) : Word :=
  if i = 15#4 then s.cpu.pc + (if regshift then s.cfg.pcRegShiftOffset else 8#32) else s.cpu.gpr i

/-- The first operand (R160). -/
def State.operandOne (s : State) (rn : Reg) : Operand2 → Word
  | .rsr .. => s.regOp rn true
  | _ => s.regOp rn false

/-- The shifter operand and its carry (R139, R160). -/
def State.operandTwo (s : State) : Operand2 → Shifted
  | .imm rot imm8 =>
    let v := (imm8.setWidth 32).rotateRight (2 * rot.toNat)
    ⟨v, if rot = 0#4 then s.cpu.cpsr.c else v.getLsbD 31⟩
  | .rsi sh ty rm => shiftImm (s.regOp rm false) ty sh s.cpu.cpsr.c
  | .rsr rs ty rm => shiftBy (s.regOp rm true) ty ((s.cpu.gpr rs).extractLsb' 0 8).toNat s.cpu.cpsr.c

/-- The carry TST and TEQ write (R161): that of a rotated immediate only if IMM_CARRY_TEST says so. -/
def State.testCarry (s : State) (x : Operand2) : Bool :=
  match x with
  | .imm .. => if s.cfg.immCarryTest then (s.operandTwo x).c else s.cpu.cpsr.c
  | _ => (s.operandTwo x).c

/-- A status word with N and Z of a result, and the C and V given. -/
def Psr.nzcv (q : Psr) (r : Word) (c v : Bool) : Psr := { q with n := r.getLsbD 31, z := decide (r = 0#32), c := c, v := v }

/-- The state after an ARM instruction that writes a register and a status word: pc on by 4, some cycles charged, nothing
else. -/
def State.wrote (s : State) (rd : Reg) (r : Word) (q : Psr) (cycles : Nat) : State :=
  s.withCpu fun p => { p.setGpr rd r with cpsr := q, pc := p.pc + 4#32, ts := p.ts + cycles }

/-- The state after an ARM instruction that writes a status word alone. -/
def State.tested (s : State) (q : Psr) (cycles : Nat) : State :=
  s.withCpu fun p => { p with cpsr := q, pc := p.pc + 4#32, ts := p.ts + cycles }

/-- The same for a Thumb instruction: pc on by 2. -/
def State.wroteThumb (s : State) (rd : Reg) (r : Word) (q : Psr) (cycles : Nat) : State :=
  s.withCpu fun p => { p.setGpr rd r with cpsr := q, pc := p.pc + 2#32, ts := p.ts + cycles }

/-- The same for a Thumb instruction that writes no register. -/
def State.testedThumb (s : State) (q : Psr) : State := s.withCpu fun p => { p with cpsr := q, pc := p.pc + 2#32 }

/-! #### Exact arithmetic -/

/-- An integer that 32 signed bits hold. -/
def fitsSigned (x : Int) : Prop := -2147483648 ≤ x ∧ x ≤ 2147483647

/-- m of R442 for the multiplier operand x: 1, 2 or 3 if x[31:8], x[31:16] or x[31:24] is all zeros, or, in a signed
multiply, all ones; otherwise 4. -/
def operandCycles (signed : Bool) (x : Word) : Nat :=
  let plain := fun k => x.toNat < 2 ^ k ∨ (signed = true ∧ 2 ^ 32 - 2 ^ k ≤ x.toNat)
  if plain 8 then 1 else if plain 16 then 2 else if plain 24 then 3 else 4

/-! #### Jumps -/

/-- The refill of R441 at a target in the given state. -/
def State.refill (s : State) (t : Bool) (target : Word) : Nat :=
  s.waitCost (if t then target &&& 0xFFFFFFFE#32 else target &&& 0xFFFFFFFC#32) (if t then .s16 else .s32)

/-- A processor whose pc has been written (R33): aligned for the state t, the next fetch non-sequential, cycles charged. -/
def ProcState.jumped (p : ProcState) (t : Bool) (target : Word) (cycles : Nat) : ProcState :=
  { p with
    pc := if t then target &&& 0xFFFFFFFE#32 else target &&& 0xFFFFFFFC#32
    ts := p.ts + cycles
    lastbus := none }

/-- A processor after a branch exchange (R262): T is bit 0 of the target. -/
def ProcState.exchanged (p : ProcState) (target : Word) (cycles : Nat) : ProcState :=
  { p.jumped (target.getLsbD 0) target cycles with cpsr := { p.cpsr with t := target.getLsbD 0 } }

/-! #### Transfers -/

/-- The offset of a word or byte transfer (R105): 12 bits, or a shifted register. -/
inductive MemOffset where
  | imm (off12 : BitVec 12)
  | reg (sh : BitVec 5) (ty : ShiftType) (rm : Reg)
deriving DecidableEq, Repr

/-- An offset that R220 does not refuse: Rm is not R15. -/
def MemOffset.Allowed : MemOffset → Prop
  | .imm _ => True
  | .reg _ _ rm => rm ≠ 15#4

/-- The single data transfer of the bits L, B, P, U, W and an offset (R105): P = 0 with W = 1 is the T form. -/
def singleInstr (load byte : Bool) (c : Cond) (p u w : Bool) (rn rd : Reg) (off : MemOffset) : Instr :=
  match load, byte, !p && w, off with
  | true, false, false, .imm off12 => .ldrImm c p u w rn rd off12
  | true, false, false, .reg sh ty rm => .ldrReg c p u w rn rd sh ty rm
  | true, false, true, .imm off12 => .ldrtImm c u rn rd off12
  | true, false, true, .reg sh ty rm => .ldrtReg c u rn rd sh ty rm
  | true, true, false, .imm off12 => .ldrbImm c p u w rn rd off12
  | true, true, false, .reg sh ty rm => .ldrbReg c p u w rn rd sh ty rm
  | true, true, true, .imm off12 => .ldrbtImm c u rn rd off12
  | true, true, true, .reg sh ty rm => .ldrbtReg c u rn rd sh ty rm
  | false, false, false, .imm off12 => .strImm c p u w rn rd off12
  | false, false, false, .reg sh ty rm => .strReg c p u w rn rd sh ty rm
  | false, false, true, .imm off12 => .strtImm c u rn rd off12
  | false, false, true, .reg sh ty rm => .strtReg c u rn rd sh ty rm
  | false, true, false, .imm off12 => .strbImm c p u w rn rd off12
  | false, true, false, .reg sh ty rm => .strbReg c p u w rn rd sh ty rm
  | false, true, true, .imm off12 => .strbtImm c u rn rd off12
  | false, true, true, .reg sh ty rm => .strbtReg c u rn rd sh ty rm

/-- The offset of a word or byte transfer as a number (R220). -/
def State.memOffset (s : State) : MemOffset → Word
  | .imm off12 => off12.setWidth 32
  | .reg sh ty rm => (shiftImm (s.cpu.gpr rm) ty sh s.cpu.cpsr.c).r

/-- The offset of the halfword class as a number (R226). -/
def State.halfOffset (s : State) : HalfOffset → Word
  | .imm imm8 => imm8.setWidth 32
  | .reg rm => s.cpu.gpr rm

/-- offaddr of R220: the base, R15 as pc + 8, up or down by the offset. -/
def State.offsetAddr (s : State) (u : Bool) (rn : Reg) (off : Word) : Word :=
  let base := if rn = 15#4 then s.cpu.pc + 8#32 else s.cpu.gpr rn
  if u then base + off else base - off

/-- addr of R220: offset before the transfer (P = 1) or after it (P = 0). -/
def State.transferAddr (s : State) (p u : Bool) (rn : Reg) (off : Word) : Word :=
  if p then s.offsetAddr u rn off else if rn = 15#4 then s.cpu.pc + 8#32 else s.cpu.gpr rn

/-- A processor whose base register has been written back, if P and W say so (R220). -/
def ProcState.based (q : ProcState) (p w : Bool) (rn : Reg) (offaddr : Word) : ProcState :=
  if !p || w then q.setGpr rn offaddr else q

/-- The state after an ARM load, from the state its bus access left: base, then Rd, pc on by 4, one internal cycle. -/
def State.loadedArm (s : State) (p w : Bool) (rn rd : Reg) (offaddr v : Word) : State :=
  s.withCpu fun q => { (q.based p w rn offaddr).setGpr rd v with pc := q.pc + 4#32, ts := q.ts + 1 }

/-- The state after an ARM store, from the state its bus access left. -/
def State.storedArm (s : State) (p w : Bool) (rn : Reg) (offaddr : Word) : State :=
  s.withCpu fun q => { q.based p w rn offaddr with pc := q.pc + 4#32 }

/-- The state after a Thumb load, from the state its bus access left. -/
def State.loadedThumb (s : State) (rd : LowReg) (v : Word) : State :=
  s.withCpu fun q => { q.setGpr (rd.setWidth 4) v with pc := q.pc + 2#32, ts := q.ts + 1 }

/-- The state after a Thumb store, from the state its bus access left. -/
def State.storedThumb (s : State) : State := s.withCpu fun q => { q with pc := q.pc + 2#32 }

/-! #### Block transfers -/

/-- The k-th word of a block whose lowest address is given (R235). -/
def blockAddr (lowest : Word) (k : Nat) : Word := lowest + BitVec.ofNat 32 (4 * k)

/-- The lowest address of a block of n registers (R235). -/
def lowestAddr (p u : Bool) (base : Word) (n : Nat) : Word :=
  match p, u with
  | false, true => base
  | true, true => base + 4#32
  | false, false => base - BitVec.ofNat 32 (4 * n) + 4#32
  | true, false => base - BitVec.ofNat 32 (4 * n)

/-- The written-back base of a block of n registers (R235). -/
def finalBase (u : Bool) (base : Word) (n : Nat) : Word :=
  if u then base + BitVec.ofNat 32 (4 * n) else base - BitVec.ofNat 32 (4 * n)

/-- The cells behind the words of a block: for the k-th word the cells given for k, memory alone behind each. -/
def State.BlockAt (s : State) (lowest : Word) (n : Nat) (cells : Nat → List Nat) : Prop :=
  ∀ k, k < n → s.cellsAt (blockAddr lowest k) .word = some (cells k)

/-- The order in which the bus sees the words of a block (R236): from the lowest up, or from the highest down. -/
def blockOrder (u : Bool) (n : Nat) : List Nat := if u then List.range n else (List.range n).reverse

/-- The data cycles of a block (R236, R245): the first access non-sequential, every later one sequential. -/
def State.blockCost (s : State) (lowest : Word) : List Nat → Nat
  | [] => 0
  | k :: ks =>
    s.waitCost (Width.word.align (blockAddr lowest k)) .n32
      + (ks.map fun j => s.waitCost (Width.word.align (blockAddr lowest j)) .s32).sum

/-- The previous bus access of a processor after a block: its last word (R76). -/
def lastOf (lowest : Word) (order : List Nat) : Option BusAccess :=
  order.getLast?.map fun k => ⟨Width.word.align (blockAddr lowest k), .word⟩

/-- Write the values of a block to memory, in bus order (R236). -/
def writeInOrder (m : Memory) (cells : Nat → List Nat) (value : Nat → Word) (order : List Nat) : Memory :=
  order.foldl (fun m k => m.writeCells (cells k) (bytesOf (value k) 4)) m

/-- Write the values of a block to the registers of mode m's bank, R15 apart (R238, R243). -/
def ProcState.loadRegs (q : ProcState) (m : BitVec 5) (regs : List Reg) (value : Nat → Word) (order : List Nat) :
    ProcState :=
  order.foldl (fun q k => if regs.getD k 0#4 = 15#4 then q else q.setBankReg m (regs.getD k 0#4) (value k)) q

/-- What the reads of a block's words give, each with its place in the block, and the state after them. -/
structure BlockSeen where
  values : List (Nat × Word)
  s : State
deriving DecidableEq, Repr

/-- The word read at place k of a block. -/
def BlockSeen.word (b : BlockSeen) (k : Nat) : Word := (b.values.lookup k).getD 0#32

/-- Read the words of a block in the given order, each once, the first as seq says and every later one sequential (R72,
R236). -/
def State.readInOrder (s : State) (lowest : Word) (seq : Bool) : List Nat → BlockSeen
  | [] => ⟨[], s⟩
  | k :: ks =>
    let x := s.memRead (blockAddr lowest k) .word seq
    let more := x.s.readInOrder lowest true ks
    ⟨(k, x.v) :: more.values, more.s⟩

/-- Write the words of a block in the given order, each once, the first as seq says and every later one sequential (R72,
R236). -/
def State.storeInOrder (s : State) (lowest : Word) (value : Nat → Word) (seq : Bool) : List Nat → State
  | [] => s
  | k :: ks => (s.memWrite (blockAddr lowest k) .word (value k) seq).storeInOrder lowest value true ks

/-- The addresses of a block's words, the base register and its list given. -/
def State.blockAddrs (s : State) (p u : Bool) (rn : Reg) (list : BitVec 16) : List (Word × Width) :=
  (List.range (regsOf list).length).map fun k =>
    (blockAddr (lowestAddr p u (s.cpu.gpr rn) (regsOf list).length) k, .word)

/-- The two words of a doubleword transfer (R231, R232). -/
def State.pairAddrs (s : State) (p u : Bool) (rn : Reg) (off : HalfOffset) : List (Word × Width) :=
  let a := Width.word.align (s.transferAddr p u rn (s.halfOffset off))
  [(a, .word), (a + 4#32, .word)]

end Sys2Proof.Machine

namespace Sys2Proof

open Machine

/-- An offset of the halfword class that R226 does not refuse. -/
def HalfOffset.Allowed : HalfOffset → Prop
  | .imm _ => True
  | .reg rm => rm ≠ 15#4

/-! #### What an instruction may write -/

/-- The condition of an ARM instruction that has one (R91, R130). -/
def Instr.condition : Instr → Option Cond
  | .andImm c _ _ _ _ _ | .andRsi c _ _ _ _ _ _ | .andRsr c _ _ _ _ _ _ | .eorImm c _ _ _ _ _
  | .eorRsi c _ _ _ _ _ _ | .eorRsr c _ _ _ _ _ _ | .subImm c _ _ _ _ _ | .subRsi c _ _ _ _ _ _
  | .subRsr c _ _ _ _ _ _ | .rsbImm c _ _ _ _ _ | .rsbRsi c _ _ _ _ _ _ | .rsbRsr c _ _ _ _ _ _
  | .addImm c _ _ _ _ _ | .addRsi c _ _ _ _ _ _ | .addRsr c _ _ _ _ _ _ | .adcImm c _ _ _ _ _
  | .adcRsi c _ _ _ _ _ _ | .adcRsr c _ _ _ _ _ _ | .sbcImm c _ _ _ _ _ | .sbcRsi c _ _ _ _ _ _
  | .sbcRsr c _ _ _ _ _ _ | .rscImm c _ _ _ _ _ | .rscRsi c _ _ _ _ _ _ | .rscRsr c _ _ _ _ _ _ | .tstImm c _ _ _
  | .tstRsi c _ _ _ _ | .tstRsr c _ _ _ _ | .teqImm c _ _ _ | .teqRsi c _ _ _ _ | .teqRsr c _ _ _ _
  | .cmpImm c _ _ _ | .cmpRsi c _ _ _ _ | .cmpRsr c _ _ _ _ | .cmnImm c _ _ _ | .cmnRsi c _ _ _ _
  | .cmnRsr c _ _ _ _ | .orrImm c _ _ _ _ _ | .orrRsi c _ _ _ _ _ _ | .orrRsr c _ _ _ _ _ _ | .movImm c _ _ _ _
  | .movRsi c _ _ _ _ _ | .movRsr c _ _ _ _ _ | .bicImm c _ _ _ _ _ | .bicRsi c _ _ _ _ _ _ | .bicRsr c _ _ _ _ _ _
  | .mvnImm c _ _ _ _ | .mvnRsi c _ _ _ _ _ | .mvnRsr c _ _ _ _ _ | .mrs c _ _ | .msrRegCpsr c _ _
  | .msrRegSpsr c _ _ | .msrImm c _ _ _ _ | .bx c _ | .blxReg c _ | .clz c _ _ | .qadd c _ _ _ | .qsub c _ _ _
  | .qdadd c _ _ _ | .qdsub c _ _ _ | .bkpt c _ _ | .smlaXy c _ _ _ _ _ _ | .smlawY c _ _ _ _ _ | .smulwY c _ _ _ _
  | .smlalXy c _ _ _ _ _ _ | .smulXy c _ _ _ _ _ | .mul c _ _ _ _ | .mla c _ _ _ _ _ | .umull c _ _ _ _ _
  | .umlal c _ _ _ _ _ | .smull c _ _ _ _ _ | .smlal c _ _ _ _ _ | .swp c _ _ _ | .swpb c _ _ _
  | .ldrh c _ _ _ _ _ _ | .strh c _ _ _ _ _ _ | .ldrsb c _ _ _ _ _ _ | .ldrsh c _ _ _ _ _ _ | .ldrd c _ _ _ _ _ _
  | .strd c _ _ _ _ _ _ | .ldrImm c _ _ _ _ _ _ | .strImm c _ _ _ _ _ _ | .ldrbImm c _ _ _ _ _ _
  | .strbImm c _ _ _ _ _ _ | .ldrtImm c _ _ _ _ | .strtImm c _ _ _ _ | .ldrbtImm c _ _ _ _ | .strbtImm c _ _ _ _
  | .ldrReg c _ _ _ _ _ _ _ _ | .strReg c _ _ _ _ _ _ _ _ | .ldrbReg c _ _ _ _ _ _ _ _ | .strbReg c _ _ _ _ _ _ _ _
  | .ldrtReg c _ _ _ _ _ _ | .strtReg c _ _ _ _ _ _ | .ldrbtReg c _ _ _ _ _ _ | .strbtReg c _ _ _ _ _ _
  | .ldm c _ _ _ _ _ | .ldmS c _ _ _ _ _ | .stm c _ _ _ _ _ | .stmS c _ _ _ _ _ | .b c _ | .bl c _ | .swi c _
  | .mcr c _ _ _ _ _ _ | .mrc c _ _ _ _ _ _ | .cdp c _ _ _ _ _ _ | .mcrrMrrc c _ _ _ _ _ _
  | .ldcStc c _ _ _ _ _ _ _ _ _ => some c
  | _ => none

/-- A status-restore-and-jump (R164, R244, R383). -/
def Instr.restoresStatus : Instr → Bool
  | .andImm _ sf _ rd _ _ | .andRsi _ sf _ rd _ _ _ | .andRsr _ sf _ rd _ _ _ | .eorImm _ sf _ rd _ _
  | .eorRsi _ sf _ rd _ _ _ | .eorRsr _ sf _ rd _ _ _ | .subImm _ sf _ rd _ _ | .subRsi _ sf _ rd _ _ _
  | .subRsr _ sf _ rd _ _ _ | .rsbImm _ sf _ rd _ _ | .rsbRsi _ sf _ rd _ _ _ | .rsbRsr _ sf _ rd _ _ _
  | .addImm _ sf _ rd _ _ | .addRsi _ sf _ rd _ _ _ | .addRsr _ sf _ rd _ _ _ | .adcImm _ sf _ rd _ _
  | .adcRsi _ sf _ rd _ _ _ | .adcRsr _ sf _ rd _ _ _ | .sbcImm _ sf _ rd _ _ | .sbcRsi _ sf _ rd _ _ _
  | .sbcRsr _ sf _ rd _ _ _ | .rscImm _ sf _ rd _ _ | .rscRsi _ sf _ rd _ _ _ | .rscRsr _ sf _ rd _ _ _
  | .orrImm _ sf _ rd _ _ | .orrRsi _ sf _ rd _ _ _ | .orrRsr _ sf _ rd _ _ _ | .movImm _ sf rd _ _
  | .movRsi _ sf rd _ _ _ | .movRsr _ sf rd _ _ _ | .bicImm _ sf _ rd _ _ | .bicRsi _ sf _ rd _ _ _
  | .bicRsr _ sf _ rd _ _ _ | .mvnImm _ sf rd _ _ | .mvnRsi _ sf rd _ _ _ | .mvnRsr _ sf rd _ _ _ => sf && rd == 15#4
  | .ldmS _ _ _ _ _ list => list.getLsbD 15
  | _ => false

/-- An instruction that may write N, Z, C and V (R36). -/
def Instr.writesFlags : Instr → Bool
  | .andImm _ sf _ _ _ _ | .andRsi _ sf _ _ _ _ _ | .andRsr _ sf _ _ _ _ _ | .eorImm _ sf _ _ _ _
  | .eorRsi _ sf _ _ _ _ _ | .eorRsr _ sf _ _ _ _ _ | .subImm _ sf _ _ _ _ | .subRsi _ sf _ _ _ _ _
  | .subRsr _ sf _ _ _ _ _ | .rsbImm _ sf _ _ _ _ | .rsbRsi _ sf _ _ _ _ _ | .rsbRsr _ sf _ _ _ _ _
  | .addImm _ sf _ _ _ _ | .addRsi _ sf _ _ _ _ _ | .addRsr _ sf _ _ _ _ _ | .adcImm _ sf _ _ _ _
  | .adcRsi _ sf _ _ _ _ _ | .adcRsr _ sf _ _ _ _ _ | .sbcImm _ sf _ _ _ _ | .sbcRsi _ sf _ _ _ _ _
  | .sbcRsr _ sf _ _ _ _ _ | .rscImm _ sf _ _ _ _ | .rscRsi _ sf _ _ _ _ _ | .rscRsr _ sf _ _ _ _ _
  | .orrImm _ sf _ _ _ _ | .orrRsi _ sf _ _ _ _ _ | .orrRsr _ sf _ _ _ _ _ | .movImm _ sf _ _ _
  | .movRsi _ sf _ _ _ _ | .movRsr _ sf _ _ _ _ | .bicImm _ sf _ _ _ _ | .bicRsi _ sf _ _ _ _ _
  | .bicRsr _ sf _ _ _ _ _ | .mvnImm _ sf _ _ _ | .mvnRsi _ sf _ _ _ _ | .mvnRsr _ sf _ _ _ _ | .mul _ sf _ _ _
  | .mla _ sf _ _ _ _ | .umull _ sf _ _ _ _ | .umlal _ sf _ _ _ _ | .smull _ sf _ _ _ _ | .smlal _ sf _ _ _ _ => sf
  | .cmnImm .. | .cmnRsi .. | .cmnRsr .. | .cmpImm .. | .cmpRsi .. | .cmpRsr .. | .teqImm .. | .teqRsi ..
  | .teqRsr .. | .tstImm .. | .tstRsi .. | .tstRsr .. => true
  | .msrRegCpsr _ mask _ => mask.getLsbD 3
  | .msrImm _ r mask _ _ => !r && mask.getLsbD 3
  | .mrc _ _ _ rd _ _ _ => rd == 15#4
  | .ldmS _ _ _ _ _ list => list.getLsbD 15
  | .tLslImm .. | .tLsrImm .. | .tAsrImm .. | .tAddReg .. | .tSubReg .. | .tAddImm3 .. | .tSubImm3 .. | .tMovImm ..
  | .tAddImm8 .. | .tSubImm8 .. | .tAnd .. | .tEor .. | .tLslReg .. | .tLsrReg .. | .tAsrReg .. | .tAdc ..
  | .tSbc .. | .tRor .. | .tNeg .. | .tOrr .. | .tMul .. | .tBic .. | .tMvn .. | .tCmpImm .. | .tTst ..
  | .tCmpReg .. | .tCmn .. | .tCmpHi .. => true
  | _ => false

/-- An instruction that sets Q on saturation or accumulate overflow (R37). -/
def Instr.setsQ : Instr → Bool
  | .qadd .. | .qsub .. | .qdadd .. | .qdsub .. | .smlaXy .. | .smlawY .. => true
  | _ => false

/-- An MSR to CPSR that selects this byte of it (R267): byte 3 is the flags field, byte 0 the control field. -/
def Instr.msrSelects (byte : Nat) : Instr → Bool
  | .msrRegCpsr _ mask _ => mask.getLsbD byte
  | .msrImm _ r mask _ _ => !r && mask.getLsbD byte
  | _ => false

/-- A software interrupt (R265, R350). -/
def Instr.isSwi : Instr → Bool
  | .swi .. | .tSwi .. => true
  | _ => false

/-- The call number a software interrupt offers the host (R410). -/
def Instr.callNumber : Instr → Option (BitVec 8)
  | .swi _ comment24 => some (comment24.extractLsb' 16 8)
  | .tSwi value8 => some value8
  | _ => none

/-- A software interrupt of a number that the host's BIOS handler services (R410). -/
def Instr.handled (i : Instr) (s : State) : Bool :=
  match i.callNumber with
  | some n => s.hleHandles n
  | none => false

/-- A branch exchange (R40): BX and BLX in their ARM and Thumb forms. -/
def Instr.exchanges : Instr → Bool
  | .bx .. | .blxReg .. | .blxImm .. | .tBx .. | .tBlxReg .. | .tBlxSuffix .. => true
  | _ => false

/-- A load of R15 (R40, R221, R240, R346). -/
def Instr.loadsPc : Instr → Bool
  | .ldrImm _ _ _ _ _ rd _ | .ldrReg _ _ _ _ _ rd _ _ _ | .ldrtImm _ _ _ rd _ | .ldrtReg _ _ _ rd _ _ _ => rd == 15#4
  | .ldm _ _ _ _ _ list => list.getLsbD 15
  | .tPop r _ => r
  | _ => false

/-- An MSR to the SPSR (R269, R270). -/
def Instr.writesSpsr : Instr → Bool
  | .msrRegSpsr .. => true
  | .msrImm _ r _ _ _ => r
  | _ => false

/-- The base register, if the transfer writes it back (R220). -/
def baseOf (p w : Bool) (rn : Reg) : List Reg := if !p || w then [rn] else []

/-- The destination registers of an instruction in the current mode's bank, its written-back base and its link register
among them; the register list of LDM with the S bit and the software interrupt's link register are Instr.places'. -/
def Instr.dests : Instr → List Reg
  | .andImm _ _ _ rd _ _ | .andRsi _ _ _ rd _ _ _ | .andRsr _ _ _ rd _ _ _ | .eorImm _ _ _ rd _ _
  | .eorRsi _ _ _ rd _ _ _ | .eorRsr _ _ _ rd _ _ _ | .subImm _ _ _ rd _ _ | .subRsi _ _ _ rd _ _ _
  | .subRsr _ _ _ rd _ _ _ | .rsbImm _ _ _ rd _ _ | .rsbRsi _ _ _ rd _ _ _ | .rsbRsr _ _ _ rd _ _ _
  | .addImm _ _ _ rd _ _ | .addRsi _ _ _ rd _ _ _ | .addRsr _ _ _ rd _ _ _ | .adcImm _ _ _ rd _ _
  | .adcRsi _ _ _ rd _ _ _ | .adcRsr _ _ _ rd _ _ _ | .sbcImm _ _ _ rd _ _ | .sbcRsi _ _ _ rd _ _ _
  | .sbcRsr _ _ _ rd _ _ _ | .rscImm _ _ _ rd _ _ | .rscRsi _ _ _ rd _ _ _ | .rscRsr _ _ _ rd _ _ _
  | .orrImm _ _ _ rd _ _ | .orrRsi _ _ _ rd _ _ _ | .orrRsr _ _ _ rd _ _ _ | .movImm _ _ rd _ _
  | .movRsi _ _ rd _ _ _ | .movRsr _ _ rd _ _ _ | .bicImm _ _ _ rd _ _ | .bicRsi _ _ _ rd _ _ _
  | .bicRsr _ _ _ rd _ _ _ | .mvnImm _ _ rd _ _ | .mvnRsi _ _ rd _ _ _ | .mvnRsr _ _ rd _ _ _ | .mul _ _ rd _ _
  | .mla _ _ rd _ _ _ | .smlaXy _ rd _ _ _ _ _ | .smlawY _ rd _ _ _ _ | .smulwY _ rd _ _ _ | .smulXy _ rd _ _ _ _
  | .clz _ rd _ | .qadd _ _ rd _ | .qsub _ _ rd _ | .qdadd _ _ rd _ | .qdsub _ _ rd _ | .mrs _ _ rd
  | .mrc _ _ _ rd _ _ _ | .swp _ _ rd _ | .swpb _ _ rd _ => [rd]
  | .umull _ _ rdHi rdLo _ _ | .umlal _ _ rdHi rdLo _ _ | .smull _ _ rdHi rdLo _ _ | .smlal _ _ rdHi rdLo _ _
  | .smlalXy _ rdHi rdLo _ _ _ _ => [rdHi, rdLo]
  | .ldrh _ p _ w rn rd _ | .ldrsb _ p _ w rn rd _ | .ldrsh _ p _ w rn rd _ | .ldrImm _ p _ w rn rd _
  | .ldrbImm _ p _ w rn rd _ | .ldrReg _ p _ w rn rd _ _ _ | .ldrbReg _ p _ w rn rd _ _ _ => rd :: baseOf p w rn
  | .ldrd _ p _ w rn rd _ => rd :: (rd + 1#4) :: baseOf p w rn
  | .strh _ p _ w rn _ _ | .strd _ p _ w rn _ _ | .strImm _ p _ w rn _ _ | .strbImm _ p _ w rn _ _
  | .strReg _ p _ w rn _ _ _ _ | .strbReg _ p _ w rn _ _ _ _ => baseOf p w rn
  | .ldrtImm _ _ rn rd _ | .ldrbtImm _ _ rn rd _ | .ldrtReg _ _ rn rd _ _ _ | .ldrbtReg _ _ rn rd _ _ _ => [rd, rn]
  | .strtImm _ _ rn _ _ | .strbtImm _ _ rn _ _ | .strtReg _ _ rn _ _ _ _ | .strbtReg _ _ rn _ _ _ _ => [rn]
  | .ldm _ _ _ w rn list => regsOf list ++ (if w then [rn] else [])
  | .ldmS _ _ _ w rn _ | .stm _ _ _ w rn _ | .stmS _ _ _ w rn _ => if w then [rn] else []
  | .bl .. | .blxReg .. | .blxImm .. | .tBlxReg .. | .tBlPrefix .. | .tBlSuffix .. | .tBlxSuffix .. => [14#4]
  | .tLslImm _ _ rd | .tLsrImm _ _ rd | .tAsrImm _ _ rd | .tAddReg _ _ rd | .tSubReg _ _ rd | .tAddImm3 _ _ rd
  | .tSubImm3 _ _ rd | .tMovImm rd _ | .tAddImm8 rd _ | .tSubImm8 rd _ | .tAnd _ rd | .tEor _ rd | .tLslReg _ rd
  | .tLsrReg _ rd | .tAsrReg _ rd | .tAdc _ rd | .tSbc _ rd | .tRor _ rd | .tNeg _ rd | .tOrr _ rd | .tMul _ rd
  | .tBic _ rd | .tMvn _ rd | .tLdrPc rd _ | .tLdrReg _ _ rd | .tLdrbReg _ _ rd | .tLdrhReg _ _ rd
  | .tLdsbReg _ _ rd | .tLdshReg _ _ rd | .tLdrImm _ _ rd | .tLdrbImm _ _ rd | .tLdrhImm _ _ rd | .tLdrSp rd _
  | .tAddPc rd _ | .tAddSp rd _ => [rd.setWidth 4]
  | .tAddHi _ rd | .tMovHi _ rd => [rd]
  | .tAddSpImm .. | .tPush .. => [13#4]
  | .tPop _ rlist => 13#4 :: regsOf (rlist.setWidth 16)
  | .tStmia rb _ => [rb.setWidth 4]
  | .tLdmia rb rlist => rb.setWidth 4 :: regsOf (rlist.setWidth 16)
  | _ => []

/-- The places of the physical register file an instruction may write (R22, R25, R29, R381). -/
def Instr.places (i : Instr) (s : State) : List (Fin 31) :=
  match i with
  | .swi .. | .tSwi .. => [bank Mode.svc.bits 14#4]
  | .ldmS _ _ _ w rn list =>
    (regsOf list).map (bank (if list.getLsbD 15 then s.cpu.cpsr.m else Mode.usr.bits))
      ++ (if w then [bank s.cpu.cpsr.m rn] else [])
  | _ => i.dests.map (bank s.cpu.cpsr.m)

/-- Where an instruction stores, and how wide: the addresses its rule computes (R222, R224, R228, R232, R241, R250, R323 to
R347). -/
def Instr.stores (i : Instr) (s : State) : List (Word × Width) :=
  match i with
  | .strImm _ p u _ rn _ off12 => [(s.transferAddr p u rn (s.memOffset (.imm off12)), .word)]
  | .strReg _ p u _ rn _ sh ty rm => [(s.transferAddr p u rn (s.memOffset (.reg sh ty rm)), .word)]
  | .strtImm _ u rn _ off12 => [(s.transferAddr false u rn (s.memOffset (.imm off12)), .word)]
  | .strtReg _ u rn _ sh ty rm => [(s.transferAddr false u rn (s.memOffset (.reg sh ty rm)), .word)]
  | .strbImm _ p u _ rn _ off12 => [(s.transferAddr p u rn (s.memOffset (.imm off12)), .byte)]
  | .strbReg _ p u _ rn _ sh ty rm => [(s.transferAddr p u rn (s.memOffset (.reg sh ty rm)), .byte)]
  | .strbtImm _ u rn _ off12 => [(s.transferAddr false u rn (s.memOffset (.imm off12)), .byte)]
  | .strbtReg _ u rn _ sh ty rm => [(s.transferAddr false u rn (s.memOffset (.reg sh ty rm)), .byte)]
  | .strh _ p u _ rn _ off => [(s.transferAddr p u rn (s.halfOffset off), .half)]
  | .strd _ p u _ rn _ off => s.pairAddrs p u rn off
  | .swp _ rn _ _ => [(s.cpu.gpr rn, .word)]
  | .swpb _ rn _ _ => [(s.cpu.gpr rn, .byte)]
  | .stm _ p u _ rn list | .stmS _ p u _ rn list => s.blockAddrs p u rn list
  | .tStrReg ro rb _ => [(s.cpu.gpr (rb.setWidth 4) + s.cpu.gpr (ro.setWidth 4), .word)]
  | .tStrbReg ro rb _ => [(s.cpu.gpr (rb.setWidth 4) + s.cpu.gpr (ro.setWidth 4), .byte)]
  | .tStrhReg ro rb _ => [(s.cpu.gpr (rb.setWidth 4) + s.cpu.gpr (ro.setWidth 4), .half)]
  | .tStrImm off5 rb _ => [(s.cpu.gpr (rb.setWidth 4) + off5.setWidth 32 * 4#32, .word)]
  | .tStrbImm off5 rb _ => [(s.cpu.gpr (rb.setWidth 4) + off5.setWidth 32, .byte)]
  | .tStrhImm off5 rb _ => [(s.cpu.gpr (rb.setWidth 4) + off5.setWidth 32 * 2#32, .half)]
  | .tStrSp _ word8 => [(s.cpu.gpr 13#4 + word8.setWidth 32 * 4#32, .word)]
  | .tPush r rlist => s.blockAddrs true false 13#4 (0#1 ++ BitVec.ofBool r ++ 0#6 ++ rlist)
  | .tStmia rb rlist => s.blockAddrs false true (rb.setWidth 4) (rlist.setWidth 16)
  | _ => []

/-- The memory cells an instruction stores to. -/
def Instr.storedCells (i : Instr) (s : State) : List Nat :=
  (i.stores s).flatMap fun x => (s.cellsAt x.1 x.2).getD []

end Sys2Proof
end

