-- ==== Sys2Proof/Certificates/Slice0/Obligations.lean ====
section
/-! DEFINITION. The statements for the provers: rules of spec/ as claims about the model. OBLIGATIONS.json lists them with
their rules; Tests/Slice0.lean shows for each a state and operands that meet its hypotheses. Instructions are described here
in the words of Safety.lean, which are written from the rules apart from the meanings. -/

open Sys2Proof Sys2Proof.Machine

/-! ### Encoding -/

/-- Decoding the bytes of an instruction gives it back, whatever bytes follow: for every well-formed instruction, on a
processor that has it (R90, R95, R96 to R112). Fields the spec ignores are not part of an instruction (log entry 1).
-/
def Obligations.DecodeOfEncode : Prop :=
  ∀ (p : Proc) (i : Instr) (rest : List Byte),
    i.wf = true → (i.onlyA = true → p = .A) →
      decode p (isThumb i) ((encode i).bytes ++ rest) = .ok (i, rest)

/-- What decodes is well formed, of the set the T bit selects, one that the processor has, and four or two bytes long
(R90, R125). -/
def Obligations.DecodedIsWellFormed : Prop :=
  ∀ (p : Proc) (t : Bool) (bytes rest : List Byte) (i : Instr),
    decode p t bytes = .ok (i, rest) →
      i.wf = true ∧ isThumb i = t ∧ (i.onlyA = true → p = .A) ∧
        ∃ code : List Byte, bytes = code ++ rest ∧ code.length = if t then 2 else 4

/-- The two processors decode alike but for the classes that only A has, whose words are undefined on B (R93, R95,
R125). The coprocessor words are not among them, being unsupported on B (R126): the model's reading, log entry 2. -/
def Obligations.BLacksOnlyTheAClasses : Prop :=
  ∀ (t : Bool) (bytes : List Byte),
    (∀ i rest, decode .A t bytes = .ok (i, rest) → i.onlyA = false → decode .B t bytes = .ok (i, rest)) ∧
    (∀ i rest, decode .A t bytes = .ok (i, rest) → i.onlyA = true → ∃ e, decode .B t bytes = .error e) ∧
    (∀ e, decode .A t bytes = .error e → ∃ e', decode .B t bytes = .error e')

/-- Words written out from the formats and examples of the spec decode to the instructions they stand for, in every
family (R96 to R112 and the examples of R165 to R362). -/
def Obligations.SampleWordsDecode : Prop :=
  decodeArm .B 0xE0010002#32 = .ok (.andRsi .al false 1#4 0#4 0#5 .lsl 2#4) ∧
  decodeArm .B 0xE2710000#32 = .ok (.rsbImm .al true 1#4 0#4 0#4 0#8) ∧
  decodeArm .A 0xE0E10392#32 = .ok (.smlal .al false 1#4 0#4 3#4 2#4) ∧
  decodeArm .A 0xE1003281#32 = .ok (.smlaXy .al 0#4 3#4 2#4 false false 1#4) ∧
  decodeArm .A 0xE1420051#32 = .ok (.qdadd .al 2#4 0#4 1#4) ∧
  decodeArm .B 0xE7010102#32 = .ok (.strReg .al true false false 1#4 0#4 2#5 .lsl 2#4) ∧
  decodeArm .B 0xE1D100B2#32 = .ok (.ldrh .al true true false 1#4 0#4 (.imm 2#8)) ∧
  decodeArm .B 0xE92D4010#32 = .ok (.stm .al true false true 13#4 0x4010#16) ∧
  decodeArm .B 0xE12FFF10#32 = .ok (.bx .al 0#4) ∧
  decodeArm .A 0xFB000000#32 = .ok (.blxImm true 0#24) ∧
  decodeArm .B 0xE121F000#32 = .ok (.msrRegCpsr .al 1#4 0#4) ∧
  decodeArm .A 0xEE070F90#32 = .ok (.mcr .al 0#3 7#4 0#4 15#4 4#3 0#4) ∧
  decodeThumb .B 0x1A88#16 = .ok (.tSubReg 2#3 1#3 0#3) ∧
  decodeThumb .B 0x41C8#16 = .ok (.tRor 1#3 0#3) ∧
  decodeThumb .B 0x4580#16 = .ok (.tCmpHi 0#4 8#4) ∧
  decodeThumb .B 0x5E88#16 = .ok (.tLdshReg 2#3 1#3 0#3) ∧
  decodeThumb .B 0xB501#16 = .ok (.tPush true 1#8) ∧
  decodeThumb .B 0xD002#16 = .ok (.tBcond .eq 2#8) ∧
  decodeThumb .A 0xEFFE#16 = .ok (.tBlxSuffix 0x7FE#11)

/-! ### Steps -/

/-- A step of a processor runs the instruction its bytes decode to (R60, R70, R402): where the step is p's and p is
not halted, the step is exec of the decoded instruction, followed by the interrupt poll, at the state in which p is
the running processor, the fetch is charged and remembered, and the raw word is at hand. The bytes are memory's where
memory is behind the fetch address, and elsewhere the bus collaborator's answer, the calls in which have been applied.
The fields cur, phase and ir, the step as the model's unit, what memory is behind an address, and how the collaborator
answers are the model's choice (log entries 5, 8, 10, 11, 12). -/
def Obligations.StepRunsDecoded : Prop :=
  ∀ (s : State) (p : Proc) (i : Instr),
    s.action = .run p → (s.cpus.get p).halted = false →
      let t := (s.cpus.get p).cpsr.t
      let w : Width := if t then .half else .word
      let a := w.align (s.cpus.get p).pc
      let s1 : State := { s with cur := p, phase := if p = s.cfg.first then .roundSecond else .roundFirst }
      let fetched := s1.withCpu fun q =>
        { q with ts := q.ts + s1.waitCost a (waitClass w (q.sequential a w)), lastbus := some ⟨a, w⟩ }
      let x := fetched.ask (.busRead p a w)
      let v := w.clip x.reply.value
      (∀ cells, cellsIn (s.maps.get p) a.toNat w.size = some cells → decode p t (cells.map s.mem.get) = .ok (i, []) →
        step s = retire (exec i { fetched with ir := s.mem.readCells cells })) ∧
      (cellsIn (s.maps.get p) a.toNat w.size = none → decode p t (bytesOf v w.size) = .ok (i, []) →
        step s = retire (exec i { x.s.applyCalls .read x.reply.calls with ir := v }))

/-- A word that decodes to nothing stops the step with Fatal(Unsupported), the word and its address in it, before any
condition is looked at (R125, R395, R402), whether memory or the bus collaborator gave the word (log entry 8). -/
def Obligations.UndefinedWordIsFatal : Prop :=
  ∀ (s : State) (p : Proc) (e : DecodeError),
    s.action = .run p → (s.cpus.get p).halted = false →
      let t := (s.cpus.get p).cpsr.t
      let w : Width := if t then .half else .word
      let a := w.align (s.cpus.get p).pc
      let answer := match s.inbox with | r :: _ => r | [] => freeReply s.draws
      let v := w.clip answer.value
      (∀ cells, cellsIn (s.maps.get p) a.toNat w.size = some cells → decode p t (cells.map s.mem.get) = .error e →
        step s = .fault (.unsupported (s.mem.readCells cells) (s.cpus.get p).pc)) ∧
      (cellsIn (s.maps.get p) a.toNat w.size = none → decode p t (bytesOf v w.size) = .error e →
        step s = .fault (.unsupported v (s.cpus.get p).pc))

/-- Every stop of an instruction is Fatal, of one of two kinds, and names the raw word and the address of the
instruction; no instruction is without a meaning (R16, R19, R395). -/
def Obligations.StopsNameTheInstruction : Prop :=
  ∀ (i : Instr) (s : State),
    (∀ f, exec i s = .fault f → f = .unsupported s.ir s.cpu.pc ∨ f = .invalidState s.ir s.cpu.pc) ∧
      ∀ r, exec i s ≠ .refused r

/-- The interrupt poll after a retired instruction (R387, R388): if IME is set, an enabled interrupt is pending, I is
clear and the processor is not halted, IRQ mode is entered at exc_base + 0x18 with LR_irq the next instruction's
address plus 4 and IRQ_ENTRY_CYCLES charged; otherwise nothing happens. That no refill is charged is the model's
reading (log entry 14). -/
def Obligations.PollAfterRetirement : Prop :=
  ∀ s : State,
    let u := s.irqs.get s.cur
    let due := u.ime = true ∧ u.enable &&& u.pending ≠ 0#32 ∧ s.cpu.cpsr.i = false ∧ s.cpu.halted = false
    (due → retire (.next s) = .next (s.withCpu fun p =>
      { p.setBankReg Mode.irq.bits 14#4 (p.pc + 4#32) with
        spsr := { p.spsr with irq := p.cpsr }
        cpsr := { p.cpsr with m := Mode.irq.bits, t := false, i := true }
        pc := Config.excBase s.cur + 0x18#32
        ts := p.ts + s.cfg.irqEntryCycles.get s.cur
        lastbus := none })) ∧
    (¬due → retire (.next s) = .next s)

/-- The step of a halted processor (R392): one quantum, no instruction; a pending enabled interrupt ends the halt
whatever IME and I are, and only if VECTOR_ON_WAKE says so and nothing masks it is IRQ mode entered at once. That IRQ
entry charges no refill is the model's reading (log entry 14). -/
def Obligations.HaltedProcessorStep : Prop :=
  ∀ (s : State) (p : Proc),
    s.action = .run p → (s.cpus.get p).halted = true →
      let u := s.irqs.get p
      let idle : State :=
        { s with
          cur := p
          phase := if p = s.cfg.first then .roundSecond else .roundFirst
          cpus := s.cpus.modify p fun q => { q with ts := q.ts + (s.cfg.haltQuantum.get p).count } }
      let awake := idle.withCpu fun q => { q with halted := false }
      (u.enable &&& u.pending = 0#32 → step s = .next idle) ∧
      (u.enable &&& u.pending ≠ 0#32 →
        (s.cfg.vectorOnWake = false ∨ u.ime = false ∨ (s.cpus.get p).cpsr.i = true → step s = .next awake) ∧
        (s.cfg.vectorOnWake = true → u.ime = true → (s.cpus.get p).cpsr.i = false →
          step s = .next (awake.withCpu fun q =>
            { q.setBankReg Mode.irq.bits 14#4 (q.pc + 4#32) with
              spsr := { q.spsr with irq := q.cpsr }
              cpsr := { q.cpsr with m := Mode.irq.bits, t := false, i := true }
              pc := Config.excBase p + 0x18#32
              ts := q.ts + s.cfg.irqEntryCycles.get p
              lastbus := none })))

/-- The masked-wake law (R393): a request of an enabled interrupt wakes a halted processor at its next step though IME
= 0 or I = 1, and its mode, its pc and its registers stay as they were. -/
def Obligations.MaskedRequestOnlyWakes : Prop :=
  ∀ (s : State) (p : Proc) (id : Nat),
    s.action = .run p → (s.cpus.get p).halted = true → id < 32 → (s.irqs.get p).enable.getLsbD id = true →
      ((s.irqs.get p).ime = false ∨ (s.cpus.get p).cpsr.i = true) →
      ∃ t, step (s.requestInterrupt p id) = .next t ∧
        t.cpus.get p =
          { s.cpus.get p with
            halted := false, ts := (s.cpus.get p).ts + (s.cfg.haltQuantum.get p).count }

/-! ### The scheduler -/

/-- What a step is (R401): a step of a processor that is behind, its turn following INTERLEAVE; or, in a dispatch
phase, the dispatch of a due event; or, when neither processor is behind, the clock's advance. A's clock runs at twice
the rate. The phase that says where an iteration stands is the model's own (log entry 10). -/
def Obligations.StepFollowsTheIteration : Prop :=
  ∀ s : State,
    let behind : Proc → Prop := fun p =>
      match p with
      | .A => s.cpus.a.ts < 2 * s.systemTs
      | .B => s.cpus.b.ts < s.systemTs
    let pending := ∃ m, s.phase = .dispatch m ∧ ∃ e ∈ s.events, e.activation ≤ s.systemTs
    (pending → ∃ x, s.action = .dispatch x) ∧
    (¬pending → s.phase ≠ .roundSecond → behind s.cfg.first → s.action = .run s.cfg.first) ∧
    (¬pending → behind s.cfg.first.other → (s.phase = .roundSecond ∨ ¬behind s.cfg.first) →
      s.action = .run s.cfg.first.other) ∧
    (s.phase = .roundSecond → ¬behind s.cfg.first.other → behind s.cfg.first → s.action = .run s.cfg.first) ∧
    (¬pending → ¬behind .A → ¬behind .B → s.action = .advance)

/-- The clock's advance (R401): by the quantum, or to the next event if that is nearer, or by nothing if an event is
due already; then events are dispatched. The phase is the model's own (log entry 10). -/
def Obligations.ClockAdvanceIsBounded : Prop :=
  ∀ s : State, s.action = .advance →
    ∃ d : Nat,
      step s = .next { s with systemTs := s.systemTs + d, phase := .dispatch s.nextSeq } ∧
      d ≤ s.cfg.schedQuantum.count ∧
      (∀ e ∈ s.events, s.systemTs < e.activation → s.systemTs + d ≤ e.activation) ∧
      (d < s.cfg.schedQuantum.count → ∃ e ∈ s.events, e.activation ≤ s.systemTs + d) ∧
      ((∃ e ∈ s.events, e.activation ≤ s.systemTs) → d = 0)

/-- The dispatch of an event (R404, R405): a due event of the queue, before every other due event by activation and
then by creation, those created after the phase began coming last; its collaborator is asked to handle it, it leaves
the queue for good and no other does, and no time passes. The phase with its mark is the model's own (log entry 10),
and the order among events that are scheduled in one phase is its choice (log entry 36).
-/
def Obligations.EventsLeaveInOrder : Prop :=
  ∀ (s : State) (x : NextEvent) (m : Nat),
    s.Inv → s.phase = .dispatch m → s.action = .dispatch x →
      (x.event ∈ s.events ∧ x.event.activation ≤ s.systemTs) ∧
      (∀ e ∈ s.events, e.activation ≤ s.systemTs → e ≠ x.event → (e.seq < m ↔ x.event.seq < m) →
        x.event.activation < e.activation ∨ x.event.activation = e.activation ∧ x.event.seq < e.seq) ∧
      (∀ e ∈ s.events, e.activation ≤ s.systemTs → e.seq < m → x.event.seq < m) ∧
      ∃ t, step s = .next t ∧ t.outbox = .event x.event.id :: s.outbox ∧ t.systemTs = s.systemTs ∧
        t.cpus = s.cpus ∧ (∃ m', t.phase = .dispatch m') ∧
        x.event ∉ t.events ∧ ∀ e ∈ s.events, e ≠ x.event → e ∈ t.events

/-- Time (R42, R403): a processor's step makes its own timestamp greater, by one cycle at least, and leaves the
other's and the system's alone; no other step changes a processor's timestamp, and the system's never falls.
Timestamps are naturals, the model's choice (log entry 6). -/
def Obligations.TimestampsGrow : Prop :=
  ∀ s t : State, step s = .next t →
    s.systemTs ≤ t.systemTs ∧
    (∀ p, s.action = .run p →
      (s.cpus.get p).ts < (t.cpus.get p).ts ∧ (t.cpus.get p.other).ts = (s.cpus.get p.other).ts ∧
        t.systemTs = s.systemTs) ∧
    ((∀ p, s.action ≠ .run p) → t.cpus = s.cpus)

/-! ### Whole-machine rules -/

/-- Isolation (R20, R407): a processor's state is changed by its own steps alone, never by a step of the other
processor, by the dispatch of an event or by the advance of the clock. -/
def Obligations.OtherProcessorUntouched : Prop :=
  ∀ (s t : State) (p : Proc), step s = .next t → s.action ≠ .run p → t.cpus.get p = s.cpus.get p

/-- What a step of p does depends on nothing in the other processor's state (R20, R79, R407): with any other state q
in its place, the step, if it is still p's, comes out the same in everything but that place, and stops the same. -/
def Obligations.OtherProcessorUnseen : Prop :=
  ∀ (s : State) (p : Proc) (q : ProcState),
    let s' : State := { s with cpus := s.cpus.put p.other q }
    s.action = .run p → s'.action = .run p →
      (∀ t, step s = .next t → step s' = .next { t with cpus := t.cpus.put p.other q }) ∧
      (∀ f, step s = .fault f → step s' = .fault f)

/-- The invariant is kept by every step: memory in canonical form, each processor in one of the seven modes with its
pc aligned for its instruction set, the event queue in order of creation (R23, R28, R30, R33, R404). The form of
memory and the rest of Inv are the model's (log entries 7, 18). -/
def Obligations.StepKeepsInvariant : Prop := ∀ s t : State, s.Inv → step s = .next t → t.Inv

/-- The invariant holds after reset, after direct boot with any seeds that are a legal mode and a pc aligned for the
seeded T, and so with the default seeds at word-aligned entry addresses. The reset state's map and open parameters,
and the conditions on the seeds, are the model's choice (log entries 4, 5, 22). -/
def Obligations.InvariantAtReset : Prop :=
  State.reset.Inv ∧
    (∀ seeds : Pair BootSeeds,
      (∀ p, modeValid (seeds.get p).cpsr.m = true ∧ alignPc (seeds.get p).cpsr.t (seeds.get p).pc = (seeds.get p).pc) →
        (State.directBoot seeds).Inv) ∧
    ∀ a b : Word, a &&& 3#32 = 0#32 → b &&& 3#32 = 0#32 →
      (State.directBoot ⟨BootSeeds.standard .A a, BootSeeds.standard .B b⟩).Inv

/-- The values of R420 and R421 that the spec gives for reset: every register 0, the pc at the reset vector, CPSR
0xD3, the saved status words 0, timestamps 0, neither halted, no previous bus access, the event queue empty, IME, IE
and IF 0. That the collaborators schedule nothing at their own reset is the model's choice (log entry 37). -/
def Obligations.ResetState : Prop :=
  (∀ p : Proc, let q := State.reset.cpus.get p
    (∀ (m : BitVec 5) (i : Reg), q.bankReg m i = 0#32) ∧
    q.pc = (match p with | .A => 0xFFFF0000#32 | .B => 0x00000000#32) ∧
    q.cpsr.toWord = 0x000000D3#32 ∧
    (∀ (m : BitVec 5) (v : Psr), q.spsr.get? m = some v → v.toWord = 0#32) ∧
    q.ts = 0 ∧ q.halted = false ∧ q.lastbus = none ∧
    State.reset.irqs.get p = ⟨false, 0#32, 0#32⟩) ∧
  State.reset.systemTs = 0 ∧ State.reset.events = []

/-- User mode is confined (R268, R398, R399): an instruction that runs in USR mode and is no software interrupt leaves
the mode and both interrupt masks as they are, and every saved status word too. -/
def Obligations.UserModeIsConfined : Prop :=
  ∀ (i : Instr) (s t : State),
    s.cpu.cpsr.m = Mode.usr.bits → i.isSwi = false → exec i s = .next t →
      t.cpu.cpsr.m = Mode.usr.bits ∧ t.cpu.cpsr.i = s.cpu.cpsr.i ∧ t.cpu.cpsr.f = s.cpu.cpsr.f ∧
        t.cpu.spsr = s.cpu.spsr

/-- The means of a mode change (R398): only a software interrupt, an MSR that selects the control field, and a
status-restore-and-jump change the mode or a mask; and a mode written is one of the seven (R28, R39). -/
def Obligations.ModeChangesByItsMeans : Prop :=
  ∀ (i : Instr) (s t : State), exec i s = .next t →
    (i.isSwi = false → i.msrSelects 0 = false → i.restoresStatus = false →
      t.cpu.cpsr.m = s.cpu.cpsr.m ∧ t.cpu.cpsr.i = s.cpu.cpsr.i ∧ t.cpu.cpsr.f = s.cpu.cpsr.f) ∧
    (modeValid s.cpu.cpsr.m = true → modeValid t.cpu.cpsr.m = true)

/-- The T bit changes only by BX and BLX, a load of R15 on A, a status-restore-and-jump and a software interrupt; MSR
never changes it (R40, R271). -/
def Obligations.ThumbBitChangesByItsMeans : Prop :=
  ∀ (i : Instr) (s t : State), exec i s = .next t → t.cpu.cpsr.t ≠ s.cpu.cpsr.t →
    i.exchanges = true ∨ (i.loadsPc = true ∧ s.cur = .A) ∨ i.restoresStatus = true ∨ i.isSwi = true

/-- Q is sticky (R37): only QADD, QSUB, QDADD, QDSUB, SMLAxy and SMLAWy set it by themselves, only an MSR of the flags
field or a status-restore-and-jump clears it, and those two alone otherwise change it. N, Z, C and V change only by
the instructions R36 names: flag-setting data processing and multiplies, comparisons, the Thumb operations that set
flags, MSR of the flags field, MRC to R15 and a status-restore-and-jump. (A software interrupt that a host BIOS
handler services is left to R410: log entry 13.) -/
def Obligations.FlagsChangeByTheirMeans : Prop :=
  ∀ (i : Instr) (s t : State), exec i s = .next t → i.handled s = false →
    (i.msrSelects 3 = false → i.restoresStatus = false →
      (s.cpu.cpsr.q = true → t.cpu.cpsr.q = true) ∧ (i.setsQ = false → t.cpu.cpsr.q = s.cpu.cpsr.q)) ∧
    (i.writesFlags = false →
      t.cpu.cpsr.n = s.cpu.cpsr.n ∧ t.cpu.cpsr.z = s.cpu.cpsr.z ∧ t.cpu.cpsr.c = s.cpu.cpsr.c ∧
        t.cpu.cpsr.v = s.cpu.cpsr.v)

/-- The frame of every instruction in the register file: every place but those of its destination registers, its
written-back base and its link register keeps its value, in every bank. And in the saved status words (R38, R269,
R381): only MSR to SPSR and the software interrupt write one, MSR the current mode's, the software interrupt SVC's. (A
software interrupt that a host BIOS handler services is left to R410: log entry 13.) -/
def Obligations.RegisterFrame : Prop :=
  ∀ (i : Instr) (s t : State), exec i s = .next t →
    (∀ k : Fin 31, i.handled s = false → k ∉ i.places s → t.cpu.phys.get k = s.cpu.phys.get k) ∧
    (i.isSwi = false → i.writesSpsr = false → t.cpu.spsr = s.cpu.spsr) ∧
    (∀ m : BitVec 5, i.writesSpsr = true → m ≠ s.cpu.cpsr.m → t.cpu.spsr.get? m = s.cpu.spsr.get? m) ∧
    (∀ m : BitVec 5, i.isSwi = true → i.handled s = false → m ≠ Mode.svc.bits →
      t.cpu.spsr.get? m = s.cpu.spsr.get? m)

/-- The frame in memory and beyond, of every instruction that puts nothing to a collaborator (all its accesses meet
memory): every byte that either processor can read, but those whose cells the instruction stores to, reads as before;
the maps, the waitstates, the interrupt units, the events, the clock, the parameters and the inbox are as they were;
and the processor is not halted by it (R43, R69, R72, R391). What is behind an address is the model's choice (log
entry 5). -/
def Obligations.MemoryFrame : Prop :=
  ∀ (i : Instr) (s t : State), exec i s = .next t → t.outbox = s.outbox →
    (∀ (p : Proc) (a : Nat), (∀ c, cellIn (s.maps.get p) a = some c → c ∉ i.storedCells s) →
      t.byteAt p a = s.byteAt p a) ∧
    t.maps = s.maps ∧ t.waits = s.waits ∧ t.irqs = s.irqs ∧ t.events = s.events ∧ t.nextSeq = s.nextSeq ∧
    t.systemTs = s.systemTs ∧ t.cfg = s.cfg ∧ t.inbox = s.inbox ∧ t.cur = s.cur ∧ t.phase = s.phase ∧ t.ir = s.ir ∧
    t.cpu.halted = s.cpu.halted ∧ t.cpus.get s.cur.other = s.cpus.get s.cur.other

/-- A condition-failed instruction only advances the pc by 4 (R131): on a processor that has it, nothing else in the
machine changes. That the coprocessor words on B are among those that may fail their condition is the model's reading
(log entry 2). -/
def Obligations.ConditionFailed : Prop :=
  ∀ (i : Instr) (c : Cond) (s : State),
    i.condition = some c → condPassed c s.cpu.cpsr = false → (i.onlyA = true → s.cur = .A) →
      exec i s = .next (s.withCpu fun p => { p with pc := p.pc + 4#32 })

/-! ### Registers and exceptions -/

/-- The banks (R24, R25, R27, R28, R29): of two modes among the seven, the same register number below 15 is the same
register exactly if it is R0 to R7, or R8 to R12 in both or neither of which is FIQ, or R13 or R14 and the modes have
the same bank; different numbers are different registers; and a write changes what that register reads and no other.
-/
def Obligations.RegisterBanks : Prop :=
  ∀ (p : ProcState) (m m' : Mode) (i j : Reg) (v : Word), i ≠ 15#4 → j ≠ 15#4 →
    let shared := i = j ∧ (i.toNat ≤ 7 ∨ (i.toNat ≤ 12 ∧ (m = .fiq ↔ m' = .fiq)) ∨
      m = m' ∨ (m ∈ [Mode.usr, Mode.sys] ∧ m' ∈ [Mode.usr, Mode.sys]))
    (p.setBankReg m.bits i v).bankReg m'.bits j = if shared then v else p.bankReg m'.bits j

/-- Software-interrupt entry, from either instruction set, where no host handler takes the call (R265, R350, R380,
R381): SPSR_svc is the old CPSR, R14_svc the next instruction's address, the mode SVC, T 0, I 1, every other CPSR bit
as it was, the pc at exc_base + 0x08, the next fetch non-sequential, one refill charged; nothing else changes. -/
def Obligations.SoftwareInterruptEntry : Prop :=
  (∀ (c : Cond) (comment24 : BitVec 24) (s : State),
    condPassed c s.cpu.cpsr = true → s.hleHandles (comment24.extractLsb' 16 8) = false →
      exec (.swi c comment24) s = .next (s.withCpu fun p =>
        { p.setBankReg Mode.svc.bits 14#4 (p.pc + 4#32) with
          spsr := { p.spsr with svc := p.cpsr }
          cpsr := { p.cpsr with m := Mode.svc.bits, t := false, i := true }
          pc := Config.excBase s.cur + 0x08#32
          ts := p.ts + s.refill false (Config.excBase s.cur + 0x08#32)
          lastbus := none })) ∧
  (∀ (value8 : BitVec 8) (s : State), s.hleHandles value8 = false →
      exec (.tSwi value8) s = .next (s.withCpu fun p =>
        { p.setBankReg Mode.svc.bits 14#4 (p.pc + 2#32) with
          spsr := { p.spsr with svc := p.cpsr }
          cpsr := { p.cpsr with m := Mode.svc.bits, t := false, i := true }
          pc := Config.excBase s.cur + 0x08#32
          ts := p.ts + s.refill false (Config.excBase s.cur + 0x08#32)
          lastbus := none }))

/-- The round-trip law (R384): a software interrupt that no host handler takes, and then MOVS PC, LR give back the
CPSR of before it, and the pc of the instruction after it; and, unless it was executed in SVC mode, every register of
that mode. -/
def Obligations.SoftwareInterruptRoundTrip : Prop :=
  ∀ (i : Instr) (s t : State),
    i.isSwi = true → exec i s = .next t → i.handled s = false → s.cpu.Legal →
      (isThumb i = s.cpu.cpsr.t) → (∀ c, i.condition = some c → condPassed c s.cpu.cpsr = true) →
      ∃ u, exec (.movRsi .al true 15#4 0#5 .lsl 14#4) t = .next u ∧
        u.cpu.cpsr = s.cpu.cpsr ∧ u.cpu.pc = s.cpu.pc + (if s.cpu.cpsr.t then 2#32 else 4#32) ∧
        (s.cpu.cpsr.m ≠ Mode.svc.bits → ∀ r : Reg, r ≠ 15#4 → u.cpu.gpr r = s.cpu.gpr r) ∧ u.mem = s.mem

/-- A call that the host's BIOS handler takes (R410): it is asked, what it does is done, no exception is entered, and
the processor goes on at the next instruction. It may write any register of any bank but R15, CPSR but its T and with
a mode of the seven, and the SPSRs, halt the processor and charge cycles; T stays and the mode stays legal. What a
handler may write is the model's choice (log entry 13), and so is how it answers (log entries 8, 12). -/
def Obligations.HandledBiosCall : Prop :=
  (∀ (c : Cond) (comment24 : BitVec 24) (s : State),
    condPassed c s.cpu.cpsr = true → s.hleHandles (comment24.extractLsb' 16 8) = true →
      let x := s.ask (.bios s.cur (comment24.extractLsb' 16 8))
      exec (.swi c comment24) s = .next
        (((x.s.applyCalls .bios x.reply.calls).applyHostWrites x.reply.host).withCpu fun p =>
          { p with pc := s.cpu.pc + 4#32 })) ∧
  (∀ (value8 : BitVec 8) (s : State), s.hleHandles value8 = true →
      let x := s.ask (.bios s.cur value8)
      exec (.tSwi value8) s = .next
        (((x.s.applyCalls .bios x.reply.calls).applyHostWrites x.reply.host).withCpu fun p =>
          { p with pc := s.cpu.pc + 2#32 })) ∧
  (∀ (i : Instr) (n : BitVec 8) (s t : State), i.callNumber = some n → s.hleHandles n = true → exec i s = .next t →
    t.cpu.cpsr.t = s.cpu.cpsr.t ∧ (modeValid s.cpu.cpsr.m = true → modeValid t.cpu.cpsr.m = true)) ∧
  (∀ (s : State) (m m' : Mode) (i j : Reg) (v : Word) (q : Psr) (n : Nat), i ≠ 15#4 → j ≠ 15#4 →
    let one := fun h : HostWrite => s.applyHostWrites [h]
    (one (.setReg m i v) = s.withCpu fun p => p.setBankReg m.bits i v) ∧
    (one (.setReg m 15#4 v) = s) ∧
    (one (.setCpsr q m) = s.withCpu fun p => { p with cpsr := { q with m := m.bits, t := p.cpsr.t } }) ∧
    ((one (.setSpsr m q)).cpu.spsr.get? m'.bits =
      if m' = m ∧ m ≠ .usr ∧ m ≠ .sys then some q else s.cpu.spsr.get? m'.bits) ∧
    (one .setHalted = s.withCpu fun p => { p with halted := true }) ∧
    (one (.charge n) = s.withCpu fun p => { p with ts := p.ts + n }))

/-- Data processing to R15 (R33, R39, R163, R164, R181, R383, R441). With S = 0 it is a jump to the result, its two
low bits cleared, in ARM state, and no flag changes. With S = 1 it is the status-restore-and-jump: from a mode that
has an SPSR holding a mode number of the seven, CPSR becomes that SPSR, the pc the result aligned for its T; from USR
or SYS, or with another number, it is Fatal(InvalidState). -/
def Obligations.DataProcessingToPc : Prop :=
  ∀ (op : AluOp) (c : Cond) (rn : Reg) (x : Operand2) (s : State),
    condPassed c s.cpu.cpsr = true → x.Allowed → op ∉ [AluOp.tst, .teq, .cmp, .cmn] →
      let r := (alu op (s.operandOne rn x) (s.operandTwo x).r (s.operandTwo x).c s.cpu.cpsr.flags).r
      let i := dpInstr op c true rn 15#4 x
      exec (dpInstr op c false rn 15#4 x) s =
        .next (s.withCpu fun p => p.jumped false r (s.refill false r + x.cycles)) ∧
      (∀ saved : Psr, s.cpu.spsr.get? s.cpu.cpsr.m = some saved → modeValid saved.m = true →
        exec i s = .next (s.withCpu fun p =>
          { p.jumped saved.t r (s.refill saved.t r + x.cycles) with cpsr := saved })) ∧
      (∀ saved : Psr, s.cpu.spsr.get? s.cpu.cpsr.m = some saved → modeValid saved.m = false →
        exec i s = .fault (.invalidState s.ir s.cpu.pc)) ∧
      (s.cpu.cpsr.m = Mode.usr.bits ∨ s.cpu.cpsr.m = Mode.sys.bits →
        exec i s = .fault (.invalidState s.ir s.cpu.pc))

/-! ### The shifter and the flag engine -/

/-- The shifter is exact arithmetic for every amount (R133 to R136, R148). LSL keeps the low 32 bits of v times 2^n
and its carry is bit 32 of that product; LSR is v over 2^n and ASR its signed floor, with the carry the last bit to
fall out at the right; ROR moves bit (k + n) mod 32 to bit k, with the carry bit (n - 1) mod 32 from the unreduced
amount; an amount of 0 changes nothing. RRX shifts the carry in at the top. An encoded amount of 0 is no shift for
LSL, 32 for LSR and ASR, RRX for ROR; any other encoded amount is itself (R137). -/
def Obligations.ShifterIsExact : Prop :=
  ∀ (v : Word) (n : Nat) (imm5 : BitVec 5) (cin : Bool),
    (shiftLsl v n cin).r.toNat = v.toNat * 2 ^ n % 4294967296 ∧
    (shiftLsl v n cin).c = (if n = 0 then cin else (v.toNat * 2 ^ n).testBit 32) ∧
    (shiftLsr v n cin).r.toNat = v.toNat / 2 ^ n ∧
    (shiftLsr v n cin).c = (if n = 0 then cin else v.toNat.testBit (n - 1)) ∧
    (shiftAsr v n cin).r.toInt = v.toInt / 2 ^ n ∧
    (shiftAsr v n cin).c = (if n = 0 then cin else (v.toInt / 2 ^ (n - 1)) % 2 = 1) ∧
    (∀ k, k < 32 → (shiftRor v n cin).r.getLsbD k = v.getLsbD ((k + n) % 32)) ∧
    (shiftRor v n cin).c = (if n = 0 then cin else v.getLsbD ((n - 1) % 32)) ∧
    (shiftRrx v cin).r.toNat = v.toNat / 2 + (if cin then 2147483648 else 0) ∧
    (shiftRrx v cin).c = v.getLsbD 0 ∧
    shiftImm v .lsl imm5 cin = shiftLsl v imm5.toNat cin ∧
    (imm5 = 0#5 → shiftImm v .lsr imm5 cin = shiftLsr v 32 cin ∧ shiftImm v .asr imm5 cin = shiftAsr v 32 cin ∧
      shiftImm v .ror imm5 cin = shiftRrx v cin) ∧
    (imm5 ≠ 0#5 → shiftImm v .lsr imm5 cin = shiftLsr v imm5.toNat cin ∧
      shiftImm v .asr imm5 cin = shiftAsr v imm5.toNat cin ∧ shiftImm v .ror imm5 cin = shiftRor v imm5.toNat cin)

/-- The flag engine is exact arithmetic (R140 to R143, R147, R149): the result is the exact sum or difference modulo
2^32, C of a sum the unsigned overflow and of a difference the absence of a borrow, V the signed overflow; and a
subtraction is AddWithCarry of the complement. -/
def Obligations.FlagEngineIsExact : Prop :=
  ∀ (a b : Word) (cin : Bool),
    let sum := a.toNat + b.toNat + cin.toNat
    let borrow := 1 - cin.toNat
    (addWithCarry a b cin).r = BitVec.ofNat 32 sum ∧
    ((addWithCarry a b cin).c = true ↔ 4294967296 ≤ sum) ∧
    ((addWithCarry a b cin).v = true ↔ ¬fitsSigned (a.toInt + b.toInt + cin.toNat)) ∧
    (subtract a b).r = BitVec.ofInt 32 (a.toInt - b.toInt) ∧
    ((subtract a b).c = true ↔ b.toNat ≤ a.toNat) ∧
    ((subtract a b).v = true ↔ ¬fitsSigned (a.toInt - b.toInt)) ∧
    (subtractWithCarry a b cin).r = BitVec.ofInt 32 (a.toInt - b.toInt - borrow) ∧
    ((subtractWithCarry a b cin).c = true ↔ b.toNat + borrow ≤ a.toNat) ∧
    ((subtractWithCarry a b cin).v = true ↔ ¬fitsSigned (a.toInt - b.toInt - borrow)) ∧
    subtract a b = addWithCarry a (~~~b) true ∧
    subtractWithCarry a b cin = addWithCarry a (~~~b) cin

/-! ### ARM data processing -/

/-- The logical operations (R139, R144, R160 to R163, R165, R166, R173, R174, R177 to R181), every operand form, Rd
not R15: Rd is the result; with S = 1, and in the tests always, N and Z are the result's, C the shifter carry (for a
test's rotated immediate only as IMM_CARRY_TEST says), V as it was; nothing else changes but the pc, by 4, and one
internal cycle in the register-shift form. -/
def Obligations.LogicalOperations : Prop :=
  ∀ (c : Cond) (sf : Bool) (rn rd : Reg) (x : Operand2) (s : State),
    condPassed c s.cpu.cpsr = true → x.Allowed → rd ≠ 15#4 →
      let a := s.operandOne rn x
      let y := s.operandTwo x
      let q := s.cpu.cpsr
      let done := fun r : Word =>
        Host.Outcome.next (s.wrote rd r (if sf then q.nzcv r y.c q.v else q) x.cycles)
      let test := fun r : Word => Host.Outcome.next (s.tested (q.nzcv r (s.testCarry x) q.v) x.cycles)
      exec (dpInstr .and c sf rn rd x) s = done (a &&& y.r) ∧
      exec (dpInstr .eor c sf rn rd x) s = done (a ^^^ y.r) ∧
      exec (dpInstr .orr c sf rn rd x) s = done (a ||| y.r) ∧
      exec (dpInstr .mov c sf rn rd x) s = done y.r ∧
      exec (dpInstr .bic c sf rn rd x) s = done (a &&& ~~~y.r) ∧
      exec (dpInstr .mvn c sf rn rd x) s = done (~~~y.r) ∧
      exec (dpInstr .tst c sf rn rd x) s = test (a &&& y.r) ∧
      exec (dpInstr .teq c sf rn rd x) s = test (a ^^^ y.r)

/-- The arithmetic operations (R141 to R143, R145, R160, R162, R163, R167 to R172, R175, R176, R181), every operand
form, Rd not R15: Rd is the exact result modulo 2^32; with S = 1, and in the comparisons always, N and Z are the
result's, C and V the unsigned and the signed overflow (C of a difference: no borrow); nothing else changes but the
pc, by 4, and one internal cycle in the register-shift form. -/
def Obligations.ArithmeticOperations : Prop :=
  ∀ (c : Cond) (sf : Bool) (rn rd : Reg) (x : Operand2) (s : State),
    condPassed c s.cpu.cpsr = true → x.Allowed → rd ≠ 15#4 →
      let a := s.operandOne rn x
      let b := (s.operandTwo x).r
      let q := s.cpu.cpsr
      let carry := q.c.toNat
      let add := fun (m n : Word) (k : Nat) =>
        q.nzcv (m + n + BitVec.ofNat 32 k) (decide (4294967296 ≤ m.toNat + n.toNat + k))
          (decide (m.toInt + n.toInt + k < -2147483648 ∨ 2147483647 < m.toInt + n.toInt + k))
      let sub := fun (m n : Word) (k : Nat) =>
        q.nzcv (m - n - BitVec.ofNat 32 k) (decide (n.toNat + k ≤ m.toNat))
          (decide (m.toInt - n.toInt - k < -2147483648 ∨ 2147483647 < m.toInt - n.toInt - k))
      let done := fun (r : Word) (f : Psr) => Host.Outcome.next (s.wrote rd r (if sf then f else q) x.cycles)
      let compare := fun f : Psr => Host.Outcome.next (s.tested f x.cycles)
      exec (dpInstr .sub c sf rn rd x) s = done (a - b) (sub a b 0) ∧
      exec (dpInstr .rsb c sf rn rd x) s = done (b - a) (sub b a 0) ∧
      exec (dpInstr .add c sf rn rd x) s = done (a + b) (add a b 0) ∧
      exec (dpInstr .adc c sf rn rd x) s = done (a + b + BitVec.ofNat 32 carry) (add a b carry) ∧
      exec (dpInstr .sbc c sf rn rd x) s = done (a - b - BitVec.ofNat 32 (1 - carry)) (sub a b (1 - carry)) ∧
      exec (dpInstr .rsc c sf rn rd x) s = done (b - a - BitVec.ofNat 32 (1 - carry)) (sub b a (1 - carry)) ∧
      exec (dpInstr .cmp c sf rn rd x) s = compare (sub a b 0) ∧
      exec (dpInstr .cmn c sf rn rd x) s = compare (add a b 0)

/-! ### Multiplies -/

/-- MUL and MLA (R190 to R193, R442): Rd is the low word of the product, with MLA plus Rn; with S = 1, N and Z are the
result's, V stays, C stays on A and is a free value on B; m or m + 1 internal cycles, where m is 1, 2, 3 or 4 by the
high bits of Rs, all zeros or all ones. The free value, drawn by the counter draws, is log entry 21. -/
def Obligations.MultiplyAndAccumulate : Prop :=
  ∀ (c : Cond) (sf : Bool) (rd rn rs rm : Reg) (s : State),
    condPassed c s.cpu.cpsr = true → rd ≠ 15#4 → rn ≠ 15#4 → rs ≠ 15#4 → rm ≠ 15#4 →
      let drawn := sf = true ∧ s.cur = .B
      let carry := if drawn then Config.freeCarry s.draws else s.cpu.cpsr.c
      let q := s.cpu.cpsr
      let m := operandCycles true (s.cpu.gpr rs)
      let done := fun (r : Word) (cycles : Nat) =>
        Host.Outcome.next
          { s.wrote rd r (if sf then q.nzcv r carry q.v else q) cycles with
            draws := if drawn then s.draws + 1 else s.draws }
      exec (.mul c sf rd rs rm) s = done (s.cpu.gpr rm * s.cpu.gpr rs) m ∧
      exec (.mla c sf rd rn rs rm) s = done (s.cpu.gpr rm * s.cpu.gpr rs + s.cpu.gpr rn) (m + 1)

/-- The long multiplies (R190, R191, R194 to R197, R442): RdHi and RdLo hold the exact 64-bit product of the unsigned
or signed operands, in the accumulating forms plus RdHi : RdLo modulo 2^64; with S = 1, N and Z are those of the 64
bits, V stays, C stays on A and is a free value on B; m + 1 internal cycles, m + 2 in the accumulating forms, where m is
1, 2, 3 or 4 by the high bits of Rs, all zeros or, in the signed forms, all ones. The free value, drawn by the counter
draws, is log entry 21. -/
def Obligations.LongMultiplies : Prop :=
  ∀ (c : Cond) (sf : Bool) (rdHi rdLo rs rm : Reg) (s : State),
    condPassed c s.cpu.cpsr = true → rdHi ≠ 15#4 → rdLo ≠ 15#4 → rs ≠ 15#4 → rm ≠ 15#4 → rdHi ≠ rdLo →
      let drawn := sf = true ∧ s.cur = .B
      let carry := if drawn then Config.freeCarry s.draws else s.cpu.cpsr.c
      let x := s.cpu.gpr rm
      let y := s.cpu.gpr rs
      let acc : Nat := (s.cpu.gpr rdHi).toNat * 4294967296 + (s.cpu.gpr rdLo).toNat
      let unsigned : Nat := x.toNat * y.toNat
      let signed : Int := x.toInt * y.toInt
      let done := fun (r : BitVec 64) (cycles : Nat) =>
        Host.Outcome.next
          { s.withCpu fun p =>
              { (p.setGpr rdLo (r.setWidth 32)).setGpr rdHi ((r >>> 32).setWidth 32) with
                cpsr := if sf then { p.cpsr with n := r.msb, z := decide (r = 0#64), c := carry } else p.cpsr
                pc := p.pc + 4#32
                ts := p.ts + cycles } with
            draws := if drawn then s.draws + 1 else s.draws }
      exec (.umull c sf rdHi rdLo rs rm) s = done (BitVec.ofNat 64 unsigned) (operandCycles false y + 1) ∧
      exec (.umlal c sf rdHi rdLo rs rm) s = done (BitVec.ofNat 64 (unsigned + acc)) (operandCycles false y + 2) ∧
      exec (.smull c sf rdHi rdLo rs rm) s = done (BitVec.ofInt 64 signed) (operandCycles true y + 1) ∧
      exec (.smlal c sf rdHi rdLo rs rm) s = done (BitVec.ofInt 64 (signed + acc)) (operandCycles true y + 2)

/-- The signed halfword multiplies of A (R190, R198 to R202, R442): the exact products of the signed halves the x and
y bits select; SMLAxy and SMLAWy set Q if the accumulate leaves 32 signed bits and never clear it; no other flag
changes. -/
def Obligations.HalfwordMultiplies : Prop :=
  ∀ (c : Cond) (rd rn rs : Reg) (y x : Bool) (rm : Reg) (s : State),
    s.cur = .A → condPassed c s.cpu.cpsr = true → rd ≠ 15#4 → rn ≠ 15#4 → rs ≠ 15#4 → rm ≠ 15#4 →
      let half := fun (v : Word) (top : Bool) => (if top then v.toInt / 65536 else ((v.setWidth 16).toInt : Int))
      let hs := half (s.cpu.gpr rs) y
      let prod := half (s.cpu.gpr rm) x * hs
      let wide := (s.cpu.gpr rm).toInt * hs / 65536
      let q := s.cpu.cpsr
      let sticky := fun v : Int => { q with q := q.q || decide (v < -2147483648 ∨ 2147483647 < v) }
      exec (.smlaXy c rd rn rs y x rm) s =
        .next (s.wrote rd (BitVec.ofInt 32 (prod + (s.cpu.gpr rn).toInt)) (sticky (prod + (s.cpu.gpr rn).toInt)) 1) ∧
      exec (.smlawY c rd rn rs y rm) s =
        .next (s.wrote rd (BitVec.ofInt 32 (wide + (s.cpu.gpr rn).toInt)) (sticky (wide + (s.cpu.gpr rn).toInt)) 1) ∧
      exec (.smulwY c rd rs y rm) s = .next (s.wrote rd (BitVec.ofInt 32 wide) q 1) ∧
      exec (.smulXy c rd rs y x rm) s = .next (s.wrote rd (BitVec.ofInt 32 prod) q 1) ∧
      (rd ≠ rn →
        let acc : Int := (s.cpu.gpr rd).toNat * 4294967296 + (s.cpu.gpr rn).toNat
        let r := BitVec.ofInt 64 (acc + prod)
        exec (.smlalXy c rd rn rs y x rm) s = .next (s.withCpu fun p =>
          { (p.setGpr rn (r.setWidth 32)).setGpr rd ((r >>> 32).setWidth 32) with
            pc := p.pc + 4#32
            ts := p.ts + 2 }))

/-- The saturating operations and CLZ of A (R146, R190, R203 to R207, R442): the exact result clamped to 32 signed
bits, the doubling of QDADD and QDSUB clamped by itself; Q is set if either was clamped, and never cleared; CLZ counts
the zero bits above the highest set bit, 32 of them in 0, and touches no flag. -/
def Obligations.SaturatingAndLeadingZeros : Prop :=
  ∀ (c : Cond) (rn rd rm : Reg) (s : State),
    s.cur = .A → condPassed c s.cpu.cpsr = true → rn ≠ 15#4 → rd ≠ 15#4 → rm ≠ 15#4 →
      let m := (s.cpu.gpr rm).toInt
      let n := (s.cpu.gpr rn).toInt
      let clamp := fun v : Int => max (-2147483648) (min 2147483647 v)
      let q := s.cpu.cpsr
      let done := fun (v : Int) (earlier : Bool) =>
        Host.Outcome.next
          (s.wrote rd (BitVec.ofInt 32 (clamp v)) { q with q := q.q || earlier || decide (clamp v ≠ v) } 0)
      let doubled := clamp (2 * n)
      let twice := decide (doubled ≠ 2 * n)
      exec (.qadd c rn rd rm) s = done (m + n) false ∧
      exec (.qsub c rn rd rm) s = done (m - n) false ∧
      exec (.qdadd c rn rd rm) s = done (m + doubled) twice ∧
      exec (.qdsub c rn rd rm) s = done (m - doubled) twice ∧
      ∃ k : Nat, exec (.clz c rd rm) s = .next (s.wrote rd (BitVec.ofNat 32 k) q 0) ∧ k ≤ 32 ∧
        (s.cpu.gpr rm).toNat < 2 ^ (32 - k) ∧ (k < 32 → 2 ^ (31 - k) ≤ (s.cpu.gpr rm).toNat)

/-! ### The bus -/

/-- An access that meets memory (R60, R61, R63, R66, R69, R75 to R77): the address is aligned down; a read gives the
bytes there, lowest address lowest, zero-extended; it is charged by region, width and sequentiality, and remembered;
nothing else changes. A write stores the value's bytes and no other, so that a read after it gives the value narrowed
to the width, if memory is in its canonical form, which every step keeps (R79, StepKeepsInvariant). That memory is
cells and maps, and what is behind an address, is the model's choice (log entries 5, 19). -/
def Obligations.MemoryAccess : Prop :=
  ∀ (s : State) (addr : Word) (w : Width) (v : Word) (cells : List Nat), s.cellsAt addr w = some cells →
    let a := match w with
      | .byte => addr
      | .half => addr - BitVec.ofNat 32 (addr.toNat % 2)
      | .word => addr - BitVec.ofNat 32 (addr.toNat % 4)
    let n := match w with | .byte => 1 | .half => 2 | .word => 4
    let sequential := ∃ b : Word, s.cpu.lastbus = some ⟨b, w⟩ ∧ a = b + BitVec.ofNat 32 n
    let row := (s.waits.get s.cur)[(a.toNat / 16777216) % 16]!
    let cost := match w, decide (s.cpu.sequential a w) with
      | .word, true => row.s32.count
      | .word, false => row.n32.count
      | _, true => row.s16.count
      | _, false => row.n16.count
    let charged := s.withCpu fun p => { p with ts := p.ts + cost, lastbus := some ⟨a, w⟩ }
    (s.cpu.sequential a w = true ↔ sequential) ∧
    cells.length = n ∧ (∀ k, k < n → cellIn (s.maps.get s.cur) (a.toNat + k) = cells[k]?) ∧
    (s.load addr w).s = charged ∧
    (∀ k, k < n → (s.load addr w).v.extractLsb' (8 * k) 8 = s.mem.get (cells.getD k 0)) ∧
    (s.load addr w).v.toNat < 256 ^ n ∧
    (s.store addr w v = { charged with mem := (s.store addr w v).mem }) ∧
    (∀ c, c ∉ cells → (s.store addr w v).mem.get c = s.mem.get c) ∧
    (Memory.wf s.mem → cells.Nodup →
      (∀ k, k < n → (s.store addr w v).mem.get (cells.getD k 0) = v.extractLsb' (8 * k) 8) ∧
      ((s.store addr w v).load addr w).v =
        (match w with | .byte => v &&& 0xFF#32 | .half => v &&& 0xFFFF#32 | .word => v))

/-- The machine and its collaborators (R49, R60, R64, R72, R73, R75 to R78, R84, R386, R391, R404). An access that meets
no memory is charged and remembered like any other, then put to the bus collaborator, once, and its answer is taken
whatever it is: the oldest answer at hand, or a free one; the calls in the answer take effect, in order, as those of a
read or of a write, and nothing else changes. A request of an interrupt below 32 sets its pending bit, any other does nothing; IME, IE and IF become what
the interrupt controller says; a bus shows what the collaborator says; a byte of memory is written by a peripheral in
the side effect of a bus access or by an event's handler, or by a BIOS handler, and not in a coprocessor's answer; an
event joins the end of the queue as the next in creation; a waitstate entry is replaced in the side effect of a write
or by an event's handler, and only there; the halt request of a processor's own store halts it, at no other time.
Requests, answers and calls as data, and which calls count when, are the model's choice (log entries 8, 12). -/
def Obligations.Collaborators : Prop :=
  ∀ (s : State) (src : CallSource) (p : Proc),
    (∀ (addr : Word) (w : Width) (v : Word) (seq : Bool), s.cellsAt addr w = none →
      let a := match w with
        | .byte => addr
        | .half => addr - BitVec.ofNat 32 (addr.toNat % 2)
        | .word => addr - BitVec.ofNat 32 (addr.toNat % 4)
      let row := (s.waits.get s.cur)[(a.toNat / 16777216) % 16]!
      let cost := match w, seq with
        | .word, true => row.s32.count
        | .word, false => row.n32.count
        | _, true => row.s16.count
        | _, false => row.n16.count
      let charged := s.withCpu fun p => { p with ts := p.ts + cost, lastbus := some ⟨a, w⟩ }
      let answer := match s.inbox with | r :: _ => r | [] => freeReply s.draws
      let asked := fun request : Request =>
        { charged with
          outbox := request :: s.outbox
          inbox := s.inbox.tail
          draws := if s.inbox = [] then s.draws + 1 else s.draws }
      let clip := fun x : Word => match w with | .byte => x &&& 0xFF#32 | .half => x &&& 0xFFFF#32 | .word => x
      let read := s.memRead addr w seq
      let written := s.memWrite addr w v seq
      read.v = clip answer.value ∧
      read.s = (asked (.busRead s.cur a w)).applyCalls .read answer.calls ∧
      written = (asked (.busWrite s.cur a w (clip v))).applyCalls .write answer.calls ∧
      read.s.outbox = .busRead s.cur a w :: s.outbox ∧ read.s.inbox = s.inbox.tail ∧
      written.outbox = .busWrite s.cur a w (clip v) :: s.outbox ∧ written.inbox = s.inbox.tail) ∧
    (∀ (addr : Word) (w : Width) (v : Word),
      let seq := s.cpu.sequential (w.align addr) w
      (seq = true ↔ ∃ b : Word, s.cpu.lastbus = some ⟨b, w⟩ ∧ w.align addr = b + BitVec.ofNat 32 w.size) ∧
      s.load addr w = s.memRead addr w seq ∧ s.store addr w v = s.memWrite addr w v seq) ∧
    (s.applyCalls src [] = s ∧
      ∀ first rest, s.applyCalls src (first :: rest) = (s.applyCall src first).applyCalls src rest) ∧
    (∀ id, id < 32 → s.applyCall src (.requestInterrupt p id) =
      { s with irqs := s.irqs.put p { s.irqs.get p with pending := (s.irqs.get p).pending ||| BitVec.twoPow 32 id } }) ∧
    (∀ v, s.applyCall src (.setIme p v) = { s with irqs := s.irqs.put p { s.irqs.get p with ime := v } }) ∧
    (∀ v, s.applyCall src (.setEnable p v) = { s with irqs := s.irqs.put p { s.irqs.get p with enable := v } }) ∧
    (∀ v, s.applyCall src (.setPending p v) = { s with irqs := s.irqs.put p { s.irqs.get p with pending := v } }) ∧
    (∀ regions, s.applyCall src (.remap p regions) = { s with maps := s.maps.put p regions }) ∧
    (∀ cell v, src ≠ .coprocessor →
      s.applyCall src (.writeCell cell v) = { s with mem := (s.applyCall src (.writeCell cell v)).mem } ∧
      (Memory.wf s.mem → ∀ c, (s.applyCall src (.writeCell cell v)).mem.get c = if c = cell then v else s.mem.get c)) ∧
    (∀ cell v, src = .coprocessor → s.applyCall src (.writeCell cell v) = s) ∧
    (∀ id, 32 ≤ id → s.applyCall src (.requestInterrupt p id) = s) ∧
    (∀ id at', s.applyCall src (.schedule id at') =
      { s with events := s.events ++ [⟨id, at', s.nextSeq⟩], nextSeq := s.nextSeq + 1 }) ∧
    (∀ region cls cycles, src = .write ∨ src = .event →
      ∀ (p' : Proc) (r' : BitVec 4) (cls' : WaitClass),
        (((s.applyCall src (.setWaitstate p region cls cycles)).waits.get p')[r'.toNat]).get cls' =
          if p' = p ∧ r' = region ∧ cls' = cls then cycles else ((s.waits.get p')[r'.toNat]).get cls') ∧
    (∀ region cls cycles, src ≠ .write → src ≠ .event →
      s.applyCall src (.setWaitstate p region cls cycles) = s) ∧
    (src = .write → s.applyCall src .halt = s.withCpu fun q => { q with halted := true }) ∧
    (src ≠ .write → s.applyCall src .halt = s)

/-! ### ARM loads and stores -/

/-- Word and byte transfers with every offset, index and T form (R33, R67, R69, R220 to R225, R441, R442): the
address, the rotated or narrowed value, the value stored (R15 as pc + STORE_PC_OFFSET, the base before its writeback),
the base written before Rd, a load of R15 interworking on A alone. The bus accesses are those of MemoryAccess and
Collaborators. -/
def Obligations.SingleTransfers : Prop :=
  ∀ (c : Cond) (p u w : Bool) (rn rd : Reg) (off : MemOffset) (s : State),
    condPassed c s.cpu.cpsr = true → off.Allowed → ((!p || w) = true → rn ≠ 15#4) →
      let offaddr := s.offsetAddr u rn (s.memOffset off)
      let addr := s.transferAddr p u rn (s.memOffset off)
      let word := s.load addr .word
      let byte := s.load addr .byte
      let v := word.v.rotateRight (8 * (addr.toNat % 4))
      (rd ≠ 15#4 →
        exec (singleInstr true false c p u w rn rd off) s = .next (word.s.loadedArm p w rn rd offaddr v)) ∧
      (rd = 15#4 → s.cur = .A →
        exec (singleInstr true false c p u w rn rd off) s = .next (word.s.withCpu fun q =>
          (q.based p w rn offaddr).exchanged v (word.s.refill (v.getLsbD 0) v + 1))) ∧
      (rd = 15#4 → s.cur = .B →
        exec (singleInstr true false c p u w rn rd off) s = .next (word.s.withCpu fun q =>
          (q.based p w rn offaddr).jumped false v (word.s.refill false v + 1))) ∧
      exec (singleInstr false false c p u w rn rd off) s =
        .next ((s.store addr .word (if rd = 15#4 then s.cpu.pc + s.cfg.storePcOffset else s.cpu.gpr rd)).storedArm
          p w rn offaddr) ∧
      (rd ≠ 15#4 →
        exec (singleInstr true true c p u w rn rd off) s = .next (byte.s.loadedArm p w rn rd offaddr byte.v) ∧
        exec (singleInstr false true c p u w rn rd off) s =
          .next ((s.store addr .byte (s.cpu.gpr rd)).storedArm p w rn offaddr))

/-- Halfword and signed transfers (R68, R226 to R230): an odd halfword address is aligned on A, rotates an unsigned
load and turns a signed one into a signed byte load on B. -/
def Obligations.HalfwordAndSignedTransfers : Prop :=
  ∀ (c : Cond) (p u w : Bool) (rn rd : Reg) (off : HalfOffset) (s : State),
    condPassed c s.cpu.cpsr = true → off.Allowed → ((!p || w) = true → rn ≠ 15#4) → rd ≠ 15#4 →
      let offaddr := s.offsetAddr u rn (s.halfOffset off)
      let addr := s.transferAddr p u rn (s.halfOffset off)
      let half := s.load addr .half
      let byte := s.load addr .byte
      let oddOnB := s.cur = .B ∧ addr.toNat % 2 = 1
      let signedHalf := (half.v.setWidth 16).signExtend 32
      let signedByte := (byte.v.setWidth 8).signExtend 32
      exec (.ldrh c p u w rn rd off) s =
        .next (half.s.loadedArm p w rn rd offaddr (if oddOnB then half.v.rotateRight 8 else half.v)) ∧
      exec (.ldrsb c p u w rn rd off) s = .next (byte.s.loadedArm p w rn rd offaddr signedByte) ∧
      (¬oddOnB → exec (.ldrsh c p u w rn rd off) s = .next (half.s.loadedArm p w rn rd offaddr signedHalf)) ∧
      (oddOnB → exec (.ldrsh c p u w rn rd off) s = .next (byte.s.loadedArm p w rn rd offaddr signedByte)) ∧
      exec (.strh c p u w rn rd off) s = .next ((s.store addr .half (s.cpu.gpr rd)).storedArm p w rn offaddr)

/-- LDRD and STRD on A (R76, R226, R231, R232, R442), and SWP and SWPB (R67, R250, R251, R442): two words from the
word address, the second access sequential, then the base; the swap's read before its write, its operands before
either. -/
def Obligations.DoublewordsAndSwaps : Prop :=
  (∀ (c : Cond) (p u w : Bool) (rn rd : Reg) (off : HalfOffset) (s : State),
    s.cur = .A → condPassed c s.cpu.cpsr = true → off.Allowed → rd.getLsbD 0 = false → rd ≠ 14#4 →
      ((!p || w) = true → rn ≠ 15#4 ∧ rn ≠ rd ∧ rn ≠ rd + 1#4) →
      let offaddr := s.offsetAddr u rn (s.halfOffset off)
      let a := s.transferAddr p u rn (s.halfOffset off) &&& 0xFFFFFFFC#32
      let lo := s.memRead a .word false
      let hi := lo.s.memRead (a + 4#32) .word true
      exec (.ldrd c p u w rn rd off) s = .next (hi.s.withCpu fun q =>
        { ((q.setGpr rd lo.v).setGpr (rd + 1#4) hi.v).based p w rn offaddr with pc := q.pc + 4#32, ts := q.ts + 1 }) ∧
      exec (.strd c p u w rn rd off) s =
        .next (((s.memWrite a .word (s.cpu.gpr rd) false).memWrite (a + 4#32) .word (s.cpu.gpr (rd + 1#4)) true).storedArm
          p w rn offaddr)) ∧
  (∀ (c : Cond) (rn rd rm : Reg) (s : State),
    condPassed c s.cpu.cpsr = true → rn ≠ 15#4 → rd ≠ 15#4 → rm ≠ 15#4 →
      let a := s.cpu.gpr rn
      let word := s.load a .word
      let byte := s.load a .byte
      exec (.swp c rn rd rm) s = .next ((word.s.store a .word (s.cpu.gpr rm)).withCpu fun q =>
        { q.setGpr rd (word.v.rotateRight (8 * (a.toNat % 4))) with pc := q.pc + 4#32, ts := q.ts + 1 }) ∧
      exec (.swpb c rn rd rm) s = .next ((byte.s.store a .byte (s.cpu.gpr rm)).withCpu fun q =>
        { q.setGpr rd byte.v with pc := q.pc + 4#32, ts := q.ts + 1 }))

/-- LDM (R72, R235, R236, R238 to R240, R245, R441, R442): the words of the block, lowest register from the lowest
address, each read once, in bus order, one non-sequential and then sequential accesses, and one internal cycle; the
base written back by the rule of each processor; R15 last, interworking on A alone. So wherever the words come from,
memory or the bus collaborator; and of a block in memory the words are those of its cells, at the cost of R236. -/
def Obligations.BlockLoads : Prop :=
  ∀ (c : Cond) (p u w : Bool) (rn : Reg) (list : BitVec 16) (s : State) (cells : Nat → List Nat),
    condPassed c s.cpu.cpsr = true → rn ≠ 15#4 → list ≠ 0#16 →
      let regs := regsOf list
      let n := regs.length
      let base := s.cpu.gpr rn
      let lowest := lowestAddr p u base n
      let order := blockOrder u n
      let value := fun k => s.mem.readCells (cells k)
      let back := w = true ∧ (rn ∉ regs ∨ (s.cur = .A ∧ (regs = [rn] ∨ regs.getLast? ≠ some rn)))
      let seen := s.readInOrder lowest false order
      let charged := s.withCpu fun q => { q with ts := q.ts + s.blockCost lowest order, lastbus := lastOf lowest order }
      let loaded : (Nat → Word) → ProcState → ProcState := fun word q =>
        let r := q.loadRegs q.cpsr.m regs word order
        { if back then r.setGpr rn (finalBase u base n) else r with ts := q.ts + 1 }
      let outcome : State → (Nat → Word) → Result := fun t word =>
        let target := word (n - 1)
        .next (t.withCpu fun q =>
          if list.getLsbD 15 = false then { loaded word q with pc := q.pc + 4#32 }
          else if s.cur = .A then (loaded word q).exchanged target (t.refill (target.getLsbD 0) target)
          else (loaded word q).jumped false target (t.refill false target))
      exec (.ldm c p u w rn list) s = outcome seen.s seen.word ∧
      (s.BlockAt lowest n cells → exec (.ldm c p u w rn list) s = outcome charged value)

/-- LDM with the S bit (R29, R39, R72, R236, R239, R243, R244): the words of the block are read as LDM's are, each once
and in bus order, from memory or the bus collaborator. Without R15 they go to the user bank's registers, the base
staying the current mode's; with R15 they go to the current mode's, and then CPSR becomes the SPSR and the pc the last
word aligned for its T: from USR or SYS, or with an SPSR whose mode number is none of the seven, that is
Fatal(InvalidState). The base's writeback by register number is the model's reading (log entry 20). -/
def Obligations.UserBankAndRestoringLoads : Prop :=
  ∀ (c : Cond) (p u w : Bool) (rn : Reg) (list : BitVec 16) (s : State) (cells : Nat → List Nat),
    condPassed c s.cpu.cpsr = true → rn ≠ 15#4 → list ≠ 0#16 →
      let regs := regsOf list
      let n := regs.length
      let base := s.cpu.gpr rn
      let lowest := lowestAddr p u base n
      let order := blockOrder u n
      let value := fun k => s.mem.readCells (cells k)
      let back := w = true ∧ (rn ∉ regs ∨ (s.cur = .A ∧ (regs = [rn] ∨ regs.getLast? ≠ some rn)))
      let seen := s.readInOrder lowest false order
      let charged := s.withCpu fun q => { q with ts := q.ts + s.blockCost lowest order, lastbus := lastOf lowest order }
      let loaded : BitVec 5 → (Nat → Word) → ProcState → ProcState := fun m word q =>
        let r := q.loadRegs m regs word order
        { if back then r.setGpr rn (finalBase u base n) else r with ts := q.ts + 1 }
      let toUser : State → (Nat → Word) → Result := fun t word =>
        .next (t.withCpu fun q => { loaded Mode.usr.bits word q with pc := q.pc + 4#32 })
      let restored : State → (Nat → Word) → Psr → Result := fun t word saved =>
        let target := word (n - 1)
        .next (t.withCpu fun q =>
          { (loaded q.cpsr.m word q).jumped saved.t target (t.refill saved.t target) with cpsr := saved })
      (list.getLsbD 15 = false →
        exec (.ldmS c p u w rn list) s = toUser seen.s seen.word ∧
        (s.BlockAt lowest n cells → exec (.ldmS c p u w rn list) s = toUser charged value)) ∧
      (list.getLsbD 15 = true →
        (∀ saved : Psr, s.cpu.spsr.get? s.cpu.cpsr.m = some saved → modeValid saved.m = true →
          exec (.ldmS c p u w rn list) s = restored seen.s seen.word saved ∧
          (s.BlockAt lowest n cells → exec (.ldmS c p u w rn list) s = restored charged value saved)) ∧
        (∀ saved : Psr, s.cpu.spsr.get? s.cpu.cpsr.m = some saved → modeValid saved.m = false →
          exec (.ldmS c p u w rn list) s = .fault (.invalidState s.ir s.cpu.pc)) ∧
        (s.cpu.cpsr.m = Mode.usr.bits ∨ s.cpu.cpsr.m = Mode.sys.bits →
          exec (.ldmS c p u w rn list) s = .fault (.invalidState s.ir s.cpu.pc)))

/-- STM and STM with the S bit (R72, R235, R236, R241 to R243, R245), to memory or the bus collaborator, each word
written once and in bus order: the registers of the current mode's bank,
or of the user bank, R15 as pc + STORE_PC_OFFSET, a listed base that is written back as its old value if it is the
lowest register and as its new one otherwise; then the base. What the S form stores for a listed base of
another bank is the model's reading (log entry 20). -/
def Obligations.BlockStores : Prop :=
  ∀ (c : Cond) (p u w : Bool) (rn : Reg) (list : BitVec 16) (s : State) (cells : Nat → List Nat),
    condPassed c s.cpu.cpsr = true → rn ≠ 15#4 → list ≠ 0#16 →
      let regs := regsOf list
      let n := regs.length
      let base := s.cpu.gpr rn
      let lowest := lowestAddr p u base n
      let order := blockOrder u n
      let m := s.cpu.cpsr.m
      let value : BitVec 5 → Nat → Word := fun bankMode k =>
        let i := regs.getD k 0#4
        if i = 15#4 then s.cpu.pc + s.cfg.storePcOffset
        else if w = true ∧ i = rn ∧ bank bankMode i = bank m rn then if k = 0 then base else finalBase u base n
        else s.cpu.bankReg bankMode i
      let finished : State → Result := fun t =>
        .next (t.withCpu fun q => { if w then q.setGpr rn (finalBase u base n) else q with pc := q.pc + 4#32 })
      let stored : BitVec 5 → State := fun bankMode =>
        { s.withCpu fun q => { q with ts := q.ts + s.blockCost lowest order, lastbus := lastOf lowest order } with
          mem := writeInOrder s.mem cells (value bankMode) order }
      exec (.stm c p u w rn list) s = finished (s.storeInOrder lowest (value m) false order) ∧
      exec (.stmS c p u w rn list) s = finished (s.storeInOrder lowest (value Mode.usr.bits) false order) ∧
      (s.BlockAt lowest n cells →
        exec (.stm c p u w rn list) s = finished (stored m) ∧
        exec (.stmS c p u w rn list) s = finished (stored Mode.usr.bits))

/-! ### ARM branches, status registers, coprocessor -/

/-- The ARM branches (R260 to R264, R283, R441): targets, link and T bit; one refill; nothing else changes. -/
def Obligations.ArmBranches : Prop :=
  ∀ (c : Cond) (off24 : BitVec 24) (rm : Reg) (h : Bool) (s : State), condPassed c s.cpu.cpsr = true →
    let target := s.cpu.pc + 8#32 + BitVec.ofInt 32 (4 * off24.toInt)
    let value := if rm = 15#4 then s.cpu.pc + 8#32 else s.cpu.gpr rm
    let far := target + (if h then 2#32 else 0#32)
    exec (.b c off24) s = .next (s.withCpu fun p => p.jumped false target (s.refill false target)) ∧
    exec (.bl c off24) s = .next (s.withCpu fun p =>
      (p.setGpr 14#4 (p.pc + 4#32)).jumped false target (s.refill false target)) ∧
    exec (.bx c rm) s = .next (s.withCpu fun p => p.exchanged value (s.refill (value.getLsbD 0) value)) ∧
    (s.cur = .A → rm ≠ 15#4 →
      exec (.blxReg c rm) s = .next (s.withCpu fun p =>
        (p.setGpr 14#4 (p.pc + 4#32)).exchanged value (s.refill (value.getLsbD 0) value))) ∧
    (s.cur = .A →
      exec (.blxImm h off24) s = .next (s.withCpu fun p =>
        { (p.setGpr 14#4 (p.pc + 4#32)).jumped true far (s.refill true far) with
          cpsr := { p.cpsr with t := true } }))

/-- The status word as software sees it (R34, R35, R38): each field at its bits, bits 26:8 zero; a word read back and
written is the same status, and a written word keeps its writable bits alone. -/
def Obligations.StatusWordLayout : Prop :=
  ∀ (q : Psr) (w : Word),
    (∀ k, k < 32 → q.toWord.getLsbD k =
      (if k = 31 then q.n else if k = 30 then q.z else if k = 29 then q.c else if k = 28 then q.v
        else if k = 27 then q.q else if k = 7 then q.i else if k = 6 then q.f else if k = 5 then q.t
        else if k < 5 then q.m.getLsbD k else false)) ∧
    Psr.ofWord q.toWord = q ∧ (Psr.ofWord w).toWord = w &&& 0xF80000FF#32

/-- MRS and MSR (R35, R39, R266 to R271): MRS gives the status word; MSR writes the selected bytes of it, in USR mode
the flags alone, from a register or a rotated immediate; a change of T is Fatal(Unsupported), an invalid mode
Fatal(InvalidState), and so is the SPSR of USR or SYS. That Q is one of the bits the flags field writes is the model's
reading of R268 and R37 against the example of R270 (log entry 35). -/
def Obligations.StatusRegisterAccess : Prop :=
  ∀ (c : Cond) (rd rm : Reg) (mask rot : BitVec 4) (imm8 : BitVec 8) (s : State),
    condPassed c s.cpu.cpsr = true → rd ≠ 15#4 → rm ≠ 15#4 →
      let q := s.cpu.cpsr
      let rotated := (imm8.setWidth 32).rotateRight (2 * rot.toNat)
      let bits := fun control : Bool =>
        (if mask.getLsbD 3 then 0xF8000000#32 else 0#32) ||| (if mask.getLsbD 0 && control then 0x000000FF#32 else 0#32)
      let merged := fun (old : Psr) (b v : Word) => Psr.ofWord (old.toWord &&& ~~~b ||| v &&& b)
      let next := fun v : Word => merged q (bits (decide (q.m ≠ Mode.usr.bits))) v
      let current := fun (i : Instr) (v : Word) =>
        ((next v).t = q.t → modeValid (next v).m = true →
          exec i s = .next (s.withCpu fun p => { p with cpsr := next v, pc := p.pc + 4#32 })) ∧
        ((next v).t ≠ q.t → exec i s = .fault (.unsupported s.ir s.cpu.pc)) ∧
        ((next v).t = q.t → modeValid (next v).m = false → exec i s = .fault (.invalidState s.ir s.cpu.pc))
      let saved := fun (i : Instr) (v : Word) =>
        (∀ old, s.cpu.spsr.get? q.m = some old →
          exec i s = .next (s.withCpu fun p =>
            { p with spsr := p.spsr.put q.m (merged old (bits true) v), pc := p.pc + 4#32 })) ∧
        (s.cpu.spsr.get? q.m = none → exec i s = .fault (.invalidState s.ir s.cpu.pc))
      exec (.mrs c false rd) s = .next (s.wrote rd q.toWord q 0) ∧
      (∀ old, s.cpu.spsr.get? q.m = some old → exec (.mrs c true rd) s = .next (s.wrote rd old.toWord q 0)) ∧
      (s.cpu.spsr.get? q.m = none → exec (.mrs c true rd) s = .fault (.invalidState s.ir s.cpu.pc)) ∧
      current (.msrRegCpsr c mask rm) (s.cpu.gpr rm) ∧ current (.msrImm c false mask rot imm8) rotated ∧
      saved (.msrRegSpsr c mask rm) (s.cpu.gpr rm) ∧ saved (.msrImm c true mask rot imm8) rotated ∧
      (modeValid q.m = true → (s.cpu.spsr.get? q.m = none ↔ q.m = Mode.usr.bits ∨ q.m = Mode.sys.bits))

/-- The coprocessor moves of A (R275 to R277, R391, R442): in a privileged mode and for number 15 the collaborator is
asked with the fields of the word; MRC writes its value to Rd, or for R15 its top four bits to N, Z, C and V; MCR
gives it Rd, and halts the processor if it is one of the two wait-for-interrupt operations. Any other number, and USR
mode, is Fatal(Unsupported). How the answer is found and that its calls take effect are the model's choice (log
entries 8, 12). -/
def Obligations.CoprocessorMoves : Prop :=
  ∀ (c : Cond) (opc1 : BitVec 3) (crn rd cp : Reg) (opc2 : BitVec 3) (crm : Reg) (s : State),
    s.cur = .A → condPassed c s.cpu.cpsr = true →
      let allowed := cp = 15#4 ∧ s.cpu.cpsr.m ≠ Mode.usr.bits
      let x := s.ask (.moveFrom opc1 crn opc2 crm)
      let v := x.reply.value
      let y := s.ask (.moveTo opc1 crn (s.cpu.gpr rd) opc2 crm)
      let waits := (opc1, crn, crm, opc2) = (0#3, 7#4, 0#4, 4#3) ∨ (opc1, crn, crm, opc2) = (0#3, 7#4, 8#4, 2#3)
      (allowed → rd ≠ 15#4 →
        exec (.mrc c opc1 crn rd cp opc2 crm) s =
          .next ((x.s.applyCalls .coprocessor x.reply.calls).withCpu fun p =>
            { p.setGpr rd v with pc := p.pc + 4#32, ts := p.ts + 1 }) ∧
        exec (.mcr c opc1 crn rd cp opc2 crm) s =
          .next ((y.s.applyCalls .coprocessor y.reply.calls).withCpu fun p =>
            { p with halted := p.halted || decide waits, pc := p.pc + 4#32, ts := p.ts + 1 })) ∧
      (allowed → rd = 15#4 →
        exec (.mrc c opc1 crn rd cp opc2 crm) s =
          .next ((x.s.applyCalls .coprocessor x.reply.calls).withCpu fun p =>
            { p with
              cpsr := { p.cpsr with n := v.getLsbD 31, z := v.getLsbD 30, c := v.getLsbD 29, v := v.getLsbD 28 }
              pc := p.pc + 4#32
              ts := p.ts + 1 })) ∧
      (¬allowed → exec (.mrc c opc1 crn rd cp opc2 crm) s = .fault (.unsupported s.ir s.cpu.pc) ∧
        exec (.mcr c opc1 crn rd cp opc2 crm) s = .fault (.unsupported s.ir s.cpu.pc)) ∧
      (rd = 15#4 → exec (.mcr c opc1 crn rd cp opc2 crm) s = .fault (.unsupported s.ir s.cpu.pc))

/-- What this core does not implement stops with Fatal(Unsupported) (R125, R126, R279, R281, R282, R363): CDP, LDC,
STC, MCRR, MRRC, on A BKPT, and on B MCR and MRC (the model's reading: log entry 2), each when its condition passes;
the Thumb BKPT; PLD by PLD_POLICY, whose other choice does nothing but advance the pc; and every class of A on B,
whatever its condition (log entry 23). -/
def Obligations.UnimplementedIsFatal : Prop :=
  ∀ s : State,
    let stop : Host.Outcome State Fault Refusal := .fault (.unsupported s.ir s.cpu.pc)
    (∀ c : Cond, condPassed c s.cpu.cpsr = true →
      (∀ opc1 crn crd cp opc2 crm, exec (.cdp c opc1 crn crd cp opc2 crm) s = stop) ∧
      (∀ l rn rd cp opc crm, exec (.mcrrMrrc c l rn rd cp opc crm) s = stop) ∧
      (∀ p u n w l rn crd cp off8, exec (.ldcStc c p u n w l rn crd cp off8) s = stop) ∧
      (∀ imm12 imm4, exec (.bkpt c imm12 imm4) s = stop) ∧
      (∀ opc1 crn rd cp opc2 crm, s.cur = .B →
        exec (.mcr c opc1 crn rd cp opc2 crm) s = stop ∧ exec (.mrc c opc1 crn rd cp opc2 crm) s = stop)) ∧
    (∀ imm8, exec (.tBkpt imm8) s = stop) ∧
    (∀ i u rn off12, s.cur = .A → s.cfg.pldPolicy = .fatal → exec (.pld i u rn off12) s = stop) ∧
    (∀ i u rn off12, s.cur = .A → s.cfg.pldPolicy = .nop →
      exec (.pld i u rn off12) s = .next (s.withCpu fun p => { p with pc := p.pc + 4#32 })) ∧
    (∀ i : Instr, i.onlyA = true → s.cur = .B → exec i s = stop)

/-- Operands the spec refuses stop with Fatal(Unsupported) (R160, R190, R220, R223, R224, R226, R231, R232, R237,
R250, R263, R266, R267, R321, R345 to R348): R15 where it may not stand, RdHi = RdLo, a written-back R15, an odd or
overlapping doubleword, an empty list; on either processor (a class that only A has stops on B in any case: log entry
23). That STRD has the restrictions of LDRD, and which of two faults comes first, are the model's reading (log entries
15, 16). -/
def Obligations.RefusedOperands : Prop :=
  ∀ (c : Cond) (sf p u w : Bool) (rn rd rs rm : Reg) (s : State), condPassed c s.cpu.cpsr = true →
    let stops := fun i : Instr => exec i s = .fault (.unsupported s.ir s.cpu.pc)
    let writesPc := (!p || w) = true ∧ rn = 15#4
    (∀ op ty, rs = 15#4 → stops (dpInstr op c sf rn rd (.rsr rs ty rm))) ∧
    (rd = 15#4 ∨ rs = 15#4 ∨ rm = 15#4 →
      stops (.mul c sf rd rs rm) ∧ ∀ x y, stops (.smulwY c rd rs y rm) ∧ stops (.smulXy c rd rs y x rm)) ∧
    (rd = 15#4 ∨ rn = 15#4 ∨ rs = 15#4 ∨ rm = 15#4 →
      stops (.mla c sf rd rn rs rm) ∧ ∀ x y, stops (.smlaXy c rd rn rs y x rm) ∧ stops (.smlawY c rd rn rs y rm)) ∧
    (rd = 15#4 ∨ rn = 15#4 ∨ rs = 15#4 ∨ rm = 15#4 ∨ rd = rn →
      stops (.umull c sf rd rn rs rm) ∧ stops (.umlal c sf rd rn rs rm) ∧ stops (.smull c sf rd rn rs rm) ∧
        stops (.smlal c sf rd rn rs rm) ∧ ∀ x y, stops (.smlalXy c rd rn rs y x rm)) ∧
    (rn = 15#4 ∨ rd = 15#4 ∨ rm = 15#4 →
      stops (.qadd c rn rd rm) ∧ stops (.qsub c rn rd rm) ∧ stops (.qdadd c rn rd rm) ∧ stops (.qdsub c rn rd rm) ∧
        stops (.swp c rn rd rm) ∧ stops (.swpb c rn rd rm)) ∧
    (rd = 15#4 ∨ rm = 15#4 → stops (.clz c rd rm)) ∧
    (∀ load byte off, (writesPc ∨ ¬off.Allowed ∨ (byte = true ∧ rd = 15#4)) →
      stops (singleInstr load byte c p u w rn rd off)) ∧
    (∀ off, (writesPc ∨ ¬off.Allowed ∨ rd = 15#4) →
      stops (.ldrh c p u w rn rd off) ∧ stops (.strh c p u w rn rd off) ∧ stops (.ldrsb c p u w rn rd off) ∧
        stops (.ldrsh c p u w rn rd off) ∧ stops (.ldrd c p u w rn rd off) ∧ stops (.strd c p u w rn rd off)) ∧
    (∀ off, (rd.getLsbD 0 = true ∨ rd = 14#4 ∨ ((!p || w) = true ∧ (rn = rd ∨ rn = rd + 1#4))) →
      stops (.ldrd c p u w rn rd off) ∧ stops (.strd c p u w rn rd off)) ∧
    (∀ list, (list = 0#16 ∨ rn = 15#4) →
      stops (.ldm c p u w rn list) ∧ stops (.ldmS c p u w rn list) ∧ stops (.stm c p u w rn list) ∧
        stops (.stmS c p u w rn list)) ∧
    (rm = 15#4 → stops (.blxReg c rm) ∧ ∀ mask, stops (.msrRegCpsr c mask rm) ∧ stops (.msrRegSpsr c mask rm)) ∧
    (rd = 15#4 → ∀ r, stops (.mrs c r rd)) ∧
    stops (.tBlxReg 15#4) ∧ stops (.tPush false 0#8) ∧ stops (.tPop false 0#8) ∧
    ∀ rb, stops (.tStmia rb 0#8) ∧ stops (.tLdmia rb 0#8)

/-! ### Thumb -/

/-- The Thumb shifts (R138, R290 to R292, R303 to R305, R308, R442): the shifter on an encoded amount, or on bits 7:0
of Rs at one internal cycle; N and Z of the result, the shifter's C, V as it was. -/
def Obligations.ThumbShifts : Prop :=
  ∀ (off5 : BitVec 5) (rs rd : LowReg) (s : State),
    let q := s.cpu.cpsr
    let a := s.cpu.gpr (rs.setWidth 4)
    let b := s.cpu.gpr (rd.setWidth 4)
    let done := fun (x : Shifted) (cycles : Nat) =>
      Host.Outcome.next (s.wroteThumb (rd.setWidth 4) x.r (q.nzcv x.r x.c q.v) cycles)
    let n := off5.toNat
    exec (.tLslImm off5 rs rd) s = done (shiftLsl a n q.c) 0 ∧
    exec (.tLsrImm off5 rs rd) s = done (shiftLsr a (if n = 0 then 32 else n) q.c) 0 ∧
    exec (.tAsrImm off5 rs rd) s = done (shiftAsr a (if n = 0 then 32 else n) q.c) 0 ∧
    exec (.tLslReg rs rd) s = done (shiftLsl b (a.toNat % 256) q.c) 1 ∧
    exec (.tLsrReg rs rd) s = done (shiftLsr b (a.toNat % 256) q.c) 1 ∧
    exec (.tAsrReg rs rd) s = done (shiftAsr b (a.toNat % 256) q.c) 1 ∧
    exec (.tRor rs rd) s = done (shiftRor b (a.toNat % 256) q.c) 1

/-- The Thumb additions, subtractions and comparisons (R141 to R143, R145, R293 to R296, R298 to R300, R306, R307,
R310 to R312): exact arithmetic modulo 2^32, C and V the unsigned and the signed overflow, C of a difference the
absence of a borrow. -/
def Obligations.ThumbArithmetic : Prop :=
  ∀ (rn rs rd : LowReg) (off3 : BitVec 3) (off8 : BitVec 8) (s : State),
    let q := s.cpu.cpsr
    let x := s.cpu.gpr (rs.setWidth 4)
    let y := s.cpu.gpr (rn.setWidth 4)
    let d := s.cpu.gpr (rd.setWidth 4)
    let carry := q.c.toNat
    let add := fun (m n : Word) (k : Nat) =>
      q.nzcv (m + n + BitVec.ofNat 32 k) (decide (4294967296 ≤ m.toNat + n.toNat + k))
        (decide (m.toInt + n.toInt + k < -2147483648 ∨ 2147483647 < m.toInt + n.toInt + k))
    let sub := fun (m n : Word) (k : Nat) =>
      q.nzcv (m - n - BitVec.ofNat 32 k) (decide (n.toNat + k ≤ m.toNat))
        (decide (m.toInt - n.toInt - k < -2147483648 ∨ 2147483647 < m.toInt - n.toInt - k))
    let plus := fun (m n : Word) (k : Nat) =>
      Host.Outcome.next (s.wroteThumb (rd.setWidth 4) (m + n + BitVec.ofNat 32 k) (add m n k) 0)
    let minus := fun (m n : Word) (k : Nat) =>
      Host.Outcome.next (s.wroteThumb (rd.setWidth 4) (m - n - BitVec.ofNat 32 k) (sub m n k) 0)
    exec (.tAddReg rn rs rd) s = plus x y 0 ∧
    exec (.tSubReg rn rs rd) s = minus x y 0 ∧
    exec (.tAddImm3 off3 rs rd) s = plus x (off3.setWidth 32) 0 ∧
    exec (.tSubImm3 off3 rs rd) s = minus x (off3.setWidth 32) 0 ∧
    exec (.tAddImm8 rd off8) s = plus d (off8.setWidth 32) 0 ∧
    exec (.tSubImm8 rd off8) s = minus d (off8.setWidth 32) 0 ∧
    exec (.tAdc rs rd) s = plus d x carry ∧
    exec (.tSbc rs rd) s = minus d x (1 - carry) ∧
    exec (.tNeg rs rd) s = minus 0#32 x 0 ∧
    exec (.tCmpImm rd off8) s = .next (s.testedThumb (sub d (off8.setWidth 32) 0)) ∧
    exec (.tCmpReg rs rd) s = .next (s.testedThumb (sub d x 0)) ∧
    exec (.tCmn rs rd) s = .next (s.testedThumb (add d x 0))

/-- The Thumb logical operations, moves and multiply (R144, R191, R297, R301, R302, R309, R313 to R316, R442): N and Z
of the result, C and V as they were; but the multiply's C on B is a free value, and it costs m internal cycles, m being
1, 2, 3 or 4 by the high bits of Rs, all zeros or all ones. The free value, drawn by the counter draws, is log entry 21; that m depends on Rs is the model's reading, log entry 17. -/
def Obligations.ThumbLogicAndMultiply : Prop :=
  ∀ (rs rd : LowReg) (off8 : BitVec 8) (s : State),
    let q := s.cpu.cpsr
    let x := s.cpu.gpr (rs.setWidth 4)
    let d := s.cpu.gpr (rd.setWidth 4)
    let done := fun r : Word => Host.Outcome.next (s.wroteThumb (rd.setWidth 4) r (q.nzcv r q.c q.v) 0)
    exec (.tMovImm rd off8) s = done (off8.setWidth 32) ∧
    exec (.tAnd rs rd) s = done (d &&& x) ∧
    exec (.tEor rs rd) s = done (d ^^^ x) ∧
    exec (.tOrr rs rd) s = done (d ||| x) ∧
    exec (.tBic rs rd) s = done (d &&& ~~~x) ∧
    exec (.tMvn rs rd) s = done (~~~x) ∧
    exec (.tTst rs rd) s = .next (s.testedThumb (q.nzcv (d &&& x) q.c q.v)) ∧
    (s.cur = .A → exec (.tMul rs rd) s =
      .next (s.wroteThumb (rd.setWidth 4) (d * x) (q.nzcv (d * x) q.c q.v) (operandCycles true x))) ∧
    (s.cur = .B → exec (.tMul rs rd) s =
      .next { s.wroteThumb (rd.setWidth 4) (d * x) (q.nzcv (d * x) (Config.freeCarry s.draws) q.v)
                (operandCycles true x) with draws := s.draws + 1 })

/-- The operations on high registers, on the pc and on SP (R31, R33, R317 to R319, R342 to R344, D40): R15 reads pc +
4, a write of it jumps and stays in Thumb state, bit 1 of pc + 4 is cleared for an address; only CMP sets flags. -/
def Obligations.ThumbHighRegistersAndAddresses : Prop :=
  ∀ (rs rd : Reg) (low : LowReg) (word8 : BitVec 8) (minus : Bool) (sword7 : BitVec 7) (s : State),
    let q := s.cpu.cpsr
    let read := fun i : Reg => if i = 15#4 then s.cpu.pc + 4#32 else s.cpu.gpr i
    let jump := fun v : Word => Host.Outcome.next (s.withCpu fun p => p.jumped true v (s.refill true v))
    let write := fun (i : Reg) (v : Word) => Host.Outcome.next (s.wroteThumb i v q 0)
    let r := read rd - read rs
    (rd ≠ 15#4 → exec (.tAddHi rs rd) s = write rd (read rd + read rs) ∧ exec (.tMovHi rs rd) s = write rd (read rs)) ∧
    (rd = 15#4 → exec (.tAddHi rs rd) s = jump (read rd + read rs) ∧ exec (.tMovHi rs rd) s = jump (read rs)) ∧
    exec (.tCmpHi rs rd) s =
      .next (s.testedThumb (q.nzcv r (decide ((read rs).toNat ≤ (read rd).toNat))
        (decide ((read rd).toInt - (read rs).toInt < -2147483648 ∨
          2147483647 < (read rd).toInt - (read rs).toInt)))) ∧
    exec (.tAddPc low word8) s =
      write (low.setWidth 4) (((s.cpu.pc + 4#32) &&& 0xFFFFFFFC#32) + 4#32 * word8.setWidth 32) ∧
    exec (.tAddSp low word8) s = write (low.setWidth 4) (s.cpu.gpr 13#4 + 4#32 * word8.setWidth 32) ∧
    exec (.tAddSpImm minus sword7) s =
      write 13#4 (if minus then s.cpu.gpr 13#4 - 4#32 * sword7.setWidth 32
        else s.cpu.gpr 13#4 + 4#32 * sword7.setWidth 32)

/-- The Thumb single loads and stores, formats 6 to 11 (R66 to R69, R322 to R337, R340, R341, R442): the address of
each format, the rotated, narrowed or sign-extended value of a load and its internal cycle, the value stored; no flag
changes. -/
def Obligations.ThumbTransfers : Prop :=
  ∀ (ro rb rd : LowReg) (off5 : BitVec 5) (word8 : BitVec 8) (s : State),
    let b := s.cpu.gpr (rb.setWidth 4)
    let v := s.cpu.gpr (rd.setWidth 4)
    let sum := b + s.cpu.gpr (ro.setWidth 4)
    let words := b + 4#32 * off5.setWidth 32
    let halves := b + 2#32 * off5.setWidth 32
    let bytes := b + off5.setWidth 32
    let stack := s.cpu.gpr 13#4 + 4#32 * word8.setWidth 32
    let literal := ((s.cpu.pc + 4#32) &&& 0xFFFFFFFC#32) + 4#32 * word8.setWidth 32
    let word := fun a : Word =>
      let x := s.load a .word
      Host.Outcome.next (x.s.loadedThumb rd (x.v.rotateRight (8 * (a.toNat % 4))))
    let byte := fun a : Word => let x := s.load a .byte; Host.Outcome.next (x.s.loadedThumb rd x.v)
    let half := fun a : Word =>
      let x := s.load a .half
      Host.Outcome.next (x.s.loadedThumb rd (if s.cur = .B ∧ a.toNat % 2 = 1 then x.v.rotateRight 8 else x.v))
    let signedByte := fun a : Word =>
      let x := s.load a .byte
      Host.Outcome.next (x.s.loadedThumb rd ((x.v.setWidth 8).signExtend 32))
    let signedHalf := fun a : Word =>
      let x := s.load a .half
      if s.cur = .B ∧ a.toNat % 2 = 1 then signedByte a
      else Host.Outcome.next (x.s.loadedThumb rd ((x.v.setWidth 16).signExtend 32))
    let put := fun (a : Word) (w : Width) => Host.Outcome.next (s.store a w v).storedThumb
    exec (.tLdrPc rd word8) s = word literal ∧ exec (.tLdrReg ro rb rd) s = word sum ∧
    exec (.tLdrImm off5 rb rd) s = word words ∧ exec (.tLdrSp rd word8) s = word stack ∧
    exec (.tLdrbReg ro rb rd) s = byte sum ∧ exec (.tLdrbImm off5 rb rd) s = byte bytes ∧
    exec (.tLdrhReg ro rb rd) s = half sum ∧ exec (.tLdrhImm off5 rb rd) s = half halves ∧
    exec (.tLdsbReg ro rb rd) s = signedByte sum ∧ exec (.tLdshReg ro rb rd) s = signedHalf sum ∧
    exec (.tStrReg ro rb rd) s = put sum .word ∧ exec (.tStrImm off5 rb rd) s = put words .word ∧
    exec (.tStrSp rd word8) s = put stack .word ∧
    exec (.tStrbReg ro rb rd) s = put sum .byte ∧ exec (.tStrbImm off5 rb rd) s = put bytes .byte ∧
    exec (.tStrhReg ro rb rd) s = put sum .half ∧ exec (.tStrhImm off5 rb rd) s = put halves .half

/-- The Thumb block transfers (R345 to R348, R364): PUSH is STMDB SP!, STMIA and LDMIA are the ARM ones but that LDMIA
writes a listed base by loading alone, POP is LDMIA SP!, each with the pc on by 2; a POP of the pc interworks on A; on
B it goes to the word read last, the one for the pc, aligned for Thumb state, and stays there, its refill charged. -/
def Obligations.ThumbBlockTransfers : Prop :=
  ∀ (r : Bool) (rb : LowReg) (rlist : BitVec 8) (s : State),
    let same := fun (thumb arm : Instr) =>
      ∃ t, exec arm s = .next t ∧ exec thumb s = .next (t.withCpu fun q => { q with pc := s.cpu.pc + 2#32 })
    let base : Reg := rb.setWidth 4
    let list : BitVec 16 := rlist.setWidth 16
    (rlist ≠ 0#8 ∨ r = true →
      same (.tPush r rlist) (.stm .al true false true 13#4 (list ||| if r then 0x4000#16 else 0#16))) ∧
    (rlist ≠ 0#8 → same (.tStmia rb rlist) (.stm .al false true true base list)) ∧
    (rlist ≠ 0#8 → same (.tLdmia rb rlist) (.ldm .al false true (!list.getLsbD rb.toNat) base list)) ∧
    (rlist ≠ 0#8 → same (.tPop false rlist) (.ldm .al false true true 13#4 list)) ∧
    (s.cur = .A → exec (.tPop true rlist) s = exec (.ldm .al false true true 13#4 (list ||| 0x8000#16)) s) ∧
    (s.cur = .B → ∃ q : State,
      let order := List.range (regsOf (list ||| 0x8000#16)).length
      let v := (s.readInOrder (s.cpu.gpr 13#4) false order).word (order.length - 1)
      exec (.ldm .al false true true 13#4 (list ||| 0x8000#16)) s =
        .next (q.withCpu fun p => p.jumped false v (q.refill false v)) ∧
      exec (.tPop true rlist) s = .next (q.withCpu fun p => p.jumped true v (q.refill true v)))

/-- The Thumb branches (R320, R321, R349, R351, R360 to R362, R441): targets, link register with bit 0 set, T bit; one
refill for each that jumps. -/
def Obligations.ThumbBranches : Prop :=
  ∀ (c : Cond) (soff8 : BitVec 8) (off11 : BitVec 11) (rs : Reg) (s : State),
    let near := s.cpu.pc + 4#32 + BitVec.ofInt 32 (2 * soff8.toInt)
    let far := s.cpu.pc + 4#32 + BitVec.ofInt 32 (2 * off11.toInt)
    let long := s.cpu.gpr 14#4 + 2#32 * off11.setWidth 32
    let value := if rs = 15#4 then s.cpu.pc + 4#32 else s.cpu.gpr rs
    let link := (s.cpu.pc + 2#32) ||| 1#32
    (condPassed c s.cpu.cpsr = true →
      exec (.tBcond c soff8) s = .next (s.withCpu fun p => p.jumped true near (s.refill true near))) ∧
    (condPassed c s.cpu.cpsr = false →
      exec (.tBcond c soff8) s = .next (s.withCpu fun p => { p with pc := p.pc + 2#32 })) ∧
    exec (.tB off11) s = .next (s.withCpu fun p => p.jumped true far (s.refill true far)) ∧
    exec (.tBlPrefix off11) s =
      .next (s.wroteThumb 14#4 (s.cpu.pc + 4#32 + BitVec.ofInt 32 (4096 * off11.toInt)) s.cpu.cpsr 0) ∧
    exec (.tBlSuffix off11) s =
      .next (s.withCpu fun p => (p.setGpr 14#4 link).jumped true long (s.refill true long)) ∧
    (s.cur = .A → exec (.tBlxSuffix off11) s =
      .next (s.withCpu fun p =>
        { (p.setGpr 14#4 link).jumped false long (s.refill false long) with cpsr := { p.cpsr with t := false } })) ∧
    exec (.tBx rs) s = .next (s.withCpu fun p => p.exchanged value (s.refill (value.getLsbD 0) value)) ∧
    (s.cur = .A → rs ≠ 15#4 → exec (.tBlxReg rs) s =
      .next (s.withCpu fun p => (p.setGpr 14#4 link).exchanged value (s.refill (value.getLsbD 0) value)))
end

