-- ==== Sys2Proof/Laws/Memory.lean ====
section
/-! SUPPORT. Memory: reading after writing, and every operation keeps the canonical form. -/

namespace Sys2Proof.Machine

theorem Memory.get_of_lt (m : Memory) (a : Nat) (h : ∀ x ∈ m, a < x.1) : m.get a = Memory.unlisted := by
  induction m with
  | nil => rfl
  | cons x rest ih =>
    obtain ⟨k, v⟩ := x
    have hk : a < k := h (k, v) (by simp)
    simp only [Memory.get]
    rw [if_neg (by omega)]
    exact ih fun y hy => h y (by simp [hy])

/-- A write in the right order of cells: what a later entry may be. -/
theorem Memory.mem_set {m : Memory} {a : Nat} {v : Byte} {x : Host.Cell} (h : x ∈ m.set a v) :
    x ∈ m ∨ (x = (a, v) ∧ v ≠ Memory.unlisted) := by
  induction m with
  | nil =>
    simp only [Memory.set] at h
    split at h
    · simp at h
    · simp only [List.mem_singleton] at h; exact .inr ⟨h, by assumption⟩
  | cons y rest ih =>
    obtain ⟨k, w⟩ := y
    simp only [Memory.set] at h
    split at h
    · rcases List.mem_cons.1 h with h | h
      · exact .inl (by simp [h])
      · rcases ih h with h | h
        · exact .inl (by simp [h])
        · exact .inr h
    · split at h
      · split at h
        · exact .inl (by simp [h])
        · rcases List.mem_cons.1 h with h | h
          · exact .inr ⟨h, by assumption⟩
          · exact .inl (by simp [h])
      · split at h
        · exact .inl h
        · rcases List.mem_cons.1 h with h | h
          · exact .inr ⟨h, by assumption⟩
          · exact .inl h

theorem Memory.wf_set {m : Memory} (h : m.wf) (a : Nat) (v : Byte) : (m.set a v).wf := by
  refine ⟨?_, ?_⟩
  · have hp := h.1
    clear h
    induction m with
    | nil =>
      simp only [Memory.set]
      split <;> simp
    | cons y rest ih =>
      obtain ⟨k, w⟩ := y
      rw [List.pairwise_cons] at hp
      have ih' := ih hp.2
      simp only [Memory.set]
      split
      · rename_i hk
        rw [List.pairwise_cons]
        refine ⟨fun x hx => ?_, ih'⟩
        rcases Memory.mem_set hx with hx | ⟨rfl, _⟩
        · exact hp.1 x hx
        · exact hk
      · split
        · rename_i hk
          subst hk
          split
          · exact hp.2
          · exact List.pairwise_cons.2 ⟨hp.1, hp.2⟩
        · split
          · exact List.pairwise_cons.2 hp
          · rw [List.pairwise_cons]
            refine ⟨fun x hx => ?_, List.pairwise_cons.2 hp⟩
            rcases List.mem_cons.1 hx with rfl | hx
            · show a < k; omega
            · have := hp.1 x hx
              show a < x.1
              have : k < x.1 := this
              omega
  · intro x hx
    rcases Memory.mem_set hx with hx | ⟨rfl, hv⟩
    · exact h.2 x hx
    · exact hv

theorem Memory.get_set_same (m : Memory) (h : m.wf) (a : Nat) (v : Byte) : (m.set a v).get a = v := by
  induction m with
  | nil =>
    simp only [Memory.set]
    split
    · rename_i hv; simp [Memory.get, hv]
    · simp [Memory.get]
  | cons y rest ih =>
    obtain ⟨k, w⟩ := y
    have hp := List.pairwise_cons.1 h.1
    have ih' := ih ⟨hp.2, fun x hx => h.2 x (by simp [hx])⟩
    simp only [Memory.set]
    split
    · rename_i hk
      simp only [Memory.get]
      rw [if_neg (by omega)]
      exact ih'
    · split
      · rename_i hk
        subst hk
        split
        · rename_i hv
          rw [hv]
          exact Memory.get_of_lt rest _ fun x hx => hp.1 x hx
        · simp [Memory.get]
      · split
        · rename_i hv
          rw [hv]
          refine Memory.get_of_lt _ _ fun x hx => ?_
          rcases List.mem_cons.1 hx with rfl | hx
          · show a < k; omega
          · have : k < x.1 := hp.1 x hx
            omega
        · simp [Memory.get]

theorem Memory.get_set_of_ne (m : Memory) {a b : Nat} (v : Byte) (h : b ≠ a) (hm : m.wf) :
    (m.set a v).get b = m.get b := by
  induction m with
  | nil =>
    simp only [Memory.set]
    split
    · rfl
    · simp only [Memory.get]; rw [if_neg (by omega)]
  | cons y rest ih =>
    obtain ⟨k, w⟩ := y
    have hp := List.pairwise_cons.1 hm.1
    have ih' := ih ⟨hp.2, fun x hx => hm.2 x (by simp [hx])⟩
    simp only [Memory.set]
    split
    · simp only [Memory.get]; rw [ih']
    · split
      · rename_i hk
        subst hk
        split
        · rw [Memory.get, if_neg (by omega)]
        · simp only [Memory.get]; rw [if_neg (by omega), if_neg (by omega)]
      · split
        · rfl
        · rw [Memory.get, if_neg (by omega)]

theorem Memory.wf_writeCells {m : Memory} (h : m.wf) (cs : List Nat) (bs : List Byte) : (m.writeCells cs bs).wf := by
  induction cs generalizing m bs with
  | nil => cases bs <;> exact h
  | cons c cs ih =>
    cases bs with
    | nil => exact h
    | cons b bs => exact ih (Memory.wf_set h c b) bs

/-- A write leaves every other cell alone. -/
theorem Memory.get_writeCells_of_not_mem {m : Memory} (h : m.wf) (cs : List Nat) (bs : List Byte) (a : Nat)
    (ha : a ∉ cs) : (m.writeCells cs bs).get a = m.get a := by
  induction cs generalizing m bs with
  | nil => cases bs <;> rfl
  | cons c cs ih =>
    cases bs with
    | nil => rfl
    | cons b bs =>
      simp only [List.mem_cons, not_or] at ha
      simp only [Memory.writeCells]
      rw [ih (Memory.wf_set h c b) bs ha.2, Memory.get_set_of_ne m b ha.1 h]

/-- Reading the cells of a write gives the bytes written, if no cell stands in it twice. -/
theorem Memory.map_get_writeCells {m : Memory} (h : m.wf) (cs : List Nat) (bs : List Byte) (hn : cs.Nodup)
    (hl : cs.length = bs.length) : cs.map (m.writeCells cs bs).get = bs := by
  induction cs generalizing m bs with
  | nil => cases bs with
    | nil => rfl
    | cons b bs => simp at hl
  | cons c cs ih =>
    cases bs with
    | nil => simp at hl
    | cons b bs =>
      rw [List.nodup_cons] at hn
      simp only [Memory.writeCells, List.map_cons]
      rw [ih (Memory.wf_set h c b) bs hn.2 (by simpa using hl),
        Memory.get_writeCells_of_not_mem (Memory.wf_set h c b) cs bs c hn.1, Memory.get_set_same m h c b]

theorem bytesOf_length (v : Word) (n : Nat) : (bytesOf v n).length = n := by
  induction n generalizing v with
  | zero => rfl
  | succ n ih => simp [bytesOf, ih]

theorem cellsIn_length {map : List Region} {a n : Nat} {cs : List Nat} (h : cellsIn map a n = some cs) :
    cs.length = n := by
  induction n generalizing a cs with
  | zero => simp only [cellsIn, Option.some.injEq] at h; simp [← h]
  | succ n ih =>
    simp only [cellsIn] at h
    split at h
    · rename_i c cs' _ hc
      cases h
      simp [ih hc]
    · cases h

/-- The bytes of a word, read back as a number, are its low bytes. -/
theorem littleEndian_bytesOf (v : Word) (n : Nat) : littleEndian (bytesOf v n) = v.toNat % 256 ^ n := by
  induction n generalizing v with
  | zero => simp [bytesOf, littleEndian, Nat.mod_one]
  | succ n ih =>
    simp only [bytesOf, littleEndian, ih, BitVec.toNat_setWidth, BitVec.toNat_ushiftRight, Nat.shiftRight_eq_div_pow]
    rw [pow_succ 256 n, Nat.mul_comm (256 ^ n) 256, Nat.mod_mul]

end Sys2Proof.Machine
end

