-- ==== Sys2Proof/Laws/State.lean ====
section
/-! SUPPORT. One lemma per field per update, so that no proof unfolds a record update: Pair, ProcState and State. -/

namespace Sys2Proof

/-! ### Pair -/

@[simp] theorem Pair.get_put_same {α : Type} (x : Pair α) (p : Proc) (v : α) : (x.put p v).get p = v := by
  cases p <;> rfl

theorem Pair.get_put_of_ne {α : Type} (x : Pair α) {p q : Proc} (v : α) (h : q ≠ p) : (x.put p v).get q = x.get q := by
  cases p <;> cases q <;> first | rfl | exact absurd rfl h

@[simp] theorem Pair.put_put {α : Type} (x : Pair α) (p : Proc) (v w : α) : (x.put p v).put p w = x.put p w := by
  cases p <;> rfl

@[simp] theorem Pair.put_get {α : Type} (x : Pair α) (p : Proc) : x.put p (x.get p) = x := by
  cases p <;> rfl

@[simp] theorem Pair.get_modify_same {α : Type} (x : Pair α) (p : Proc) (f : α → α) :
    (x.modify p f).get p = f (x.get p) := Pair.get_put_same x p _

theorem Pair.get_modify_of_ne {α : Type} (x : Pair α) {p q : Proc} (f : α → α) (h : q ≠ p) :
    (x.modify p f).get q = x.get q := Pair.get_put_of_ne x _ h

@[simp] theorem Pair.modify_modify {α : Type} (x : Pair α) (p : Proc) (f g : α → α) :
    (x.modify p f).modify p g = x.modify p (fun v => g (f v)) := by
  cases p <;> rfl

@[simp] theorem Proc.other_ne (p : Proc) : p.other ≠ p := by cases p <;> decide

@[simp] theorem Proc.other_other (p : Proc) : p.other.other = p := by cases p <;> rfl

theorem Proc.eq_other_of_ne {p q : Proc} (h : q ≠ p) : q = p.other := by
  cases p <;> cases q <;> first | rfl | exact absurd rfl h

@[simp] theorem Pair.get_modify_other {α : Type} (x : Pair α) (p : Proc) (f : α → α) :
    (x.modify p f).get p.other = x.get p.other := x.get_modify_of_ne f p.other_ne

namespace Machine

/-! ### ProcState -/

@[simp] theorem ProcState.setBankReg_cpsr (p : ProcState) (m : BitVec 5) (i : Reg) (v : Word) : (p.setBankReg m i v).cpsr = p.cpsr := rfl
@[simp] theorem ProcState.setBankReg_spsr (p : ProcState) (m : BitVec 5) (i : Reg) (v : Word) : (p.setBankReg m i v).spsr = p.spsr := rfl
@[simp] theorem ProcState.setBankReg_pc (p : ProcState) (m : BitVec 5) (i : Reg) (v : Word) : (p.setBankReg m i v).pc = p.pc := rfl
@[simp] theorem ProcState.setBankReg_ts (p : ProcState) (m : BitVec 5) (i : Reg) (v : Word) : (p.setBankReg m i v).ts = p.ts := rfl
@[simp] theorem ProcState.setBankReg_halted (p : ProcState) (m : BitVec 5) (i : Reg) (v : Word) : (p.setBankReg m i v).halted = p.halted := rfl
@[simp] theorem ProcState.setBankReg_lastbus (p : ProcState) (m : BitVec 5) (i : Reg) (v : Word) : (p.setBankReg m i v).lastbus = p.lastbus := rfl

@[simp] theorem ProcState.advance_phys (p : ProcState) (n : Word) : (p.advance n).phys = p.phys := rfl
@[simp] theorem ProcState.advance_cpsr (p : ProcState) (n : Word) : (p.advance n).cpsr = p.cpsr := rfl
@[simp] theorem ProcState.advance_spsr (p : ProcState) (n : Word) : (p.advance n).spsr = p.spsr := rfl
@[simp] theorem ProcState.advance_ts (p : ProcState) (n : Word) : (p.advance n).ts = p.ts := rfl
@[simp] theorem ProcState.advance_halted (p : ProcState) (n : Word) : (p.advance n).halted = p.halted := rfl
@[simp] theorem ProcState.advance_lastbus (p : ProcState) (n : Word) : (p.advance n).lastbus = p.lastbus := rfl

@[simp] theorem ProcState.setFlags_phys (p : ProcState) (f : Flags) : (p.setFlags f).phys = p.phys := rfl
@[simp] theorem ProcState.setFlags_spsr (p : ProcState) (f : Flags) : (p.setFlags f).spsr = p.spsr := rfl
@[simp] theorem ProcState.setFlags_pc (p : ProcState) (f : Flags) : (p.setFlags f).pc = p.pc := rfl
@[simp] theorem ProcState.setFlags_ts (p : ProcState) (f : Flags) : (p.setFlags f).ts = p.ts := rfl
@[simp] theorem ProcState.setFlags_halted (p : ProcState) (f : Flags) : (p.setFlags f).halted = p.halted := rfl
@[simp] theorem ProcState.setFlags_lastbus (p : ProcState) (f : Flags) : (p.setFlags f).lastbus = p.lastbus := rfl

@[simp] theorem ProcState.stickQ_phys (p : ProcState) (sat : Bool) : (p.stickQ sat).phys = p.phys := rfl
@[simp] theorem ProcState.stickQ_spsr (p : ProcState) (sat : Bool) : (p.stickQ sat).spsr = p.spsr := rfl
@[simp] theorem ProcState.stickQ_pc (p : ProcState) (sat : Bool) : (p.stickQ sat).pc = p.pc := rfl
@[simp] theorem ProcState.stickQ_ts (p : ProcState) (sat : Bool) : (p.stickQ sat).ts = p.ts := rfl
@[simp] theorem ProcState.stickQ_halted (p : ProcState) (sat : Bool) : (p.stickQ sat).halted = p.halted := rfl
@[simp] theorem ProcState.stickQ_lastbus (p : ProcState) (sat : Bool) : (p.stickQ sat).lastbus = p.lastbus := rfl

@[simp] theorem ProcState.setT_phys (p : ProcState) (t : Bool) : (p.setT t).phys = p.phys := rfl
@[simp] theorem ProcState.setT_spsr (p : ProcState) (t : Bool) : (p.setT t).spsr = p.spsr := rfl
@[simp] theorem ProcState.setT_pc (p : ProcState) (t : Bool) : (p.setT t).pc = p.pc := rfl
@[simp] theorem ProcState.setT_ts (p : ProcState) (t : Bool) : (p.setT t).ts = p.ts := rfl
@[simp] theorem ProcState.setT_halted (p : ProcState) (t : Bool) : (p.setT t).halted = p.halted := rfl
@[simp] theorem ProcState.setT_lastbus (p : ProcState) (t : Bool) : (p.setT t).lastbus = p.lastbus := rfl

@[simp] theorem ProcState.charge_phys (p : ProcState) (n : Nat) : (p.charge n).phys = p.phys := rfl
@[simp] theorem ProcState.charge_cpsr (p : ProcState) (n : Nat) : (p.charge n).cpsr = p.cpsr := rfl
@[simp] theorem ProcState.charge_spsr (p : ProcState) (n : Nat) : (p.charge n).spsr = p.spsr := rfl
@[simp] theorem ProcState.charge_pc (p : ProcState) (n : Nat) : (p.charge n).pc = p.pc := rfl
@[simp] theorem ProcState.charge_halted (p : ProcState) (n : Nat) : (p.charge n).halted = p.halted := rfl
@[simp] theorem ProcState.charge_lastbus (p : ProcState) (n : Nat) : (p.charge n).lastbus = p.lastbus := rfl

@[simp] theorem ProcState.advance_pc (p : ProcState) (n : Word) : (p.advance n).pc = p.pc + n := rfl
@[simp] theorem ProcState.setFlags_cpsr (p : ProcState) (f : Flags) : (p.setFlags f).cpsr = p.cpsr.withFlags f := rfl
@[simp] theorem ProcState.stickQ_cpsr (p : ProcState) (sat : Bool) :
    (p.stickQ sat).cpsr = { p.cpsr with q := p.cpsr.q || sat } := rfl
@[simp] theorem ProcState.setT_cpsr (p : ProcState) (t : Bool) : (p.setT t).cpsr = { p.cpsr with t := t } := rfl
@[simp] theorem ProcState.charge_ts (p : ProcState) (n : Nat) : (p.charge n).ts = p.ts + n := rfl
@[simp] theorem ProcState.setFlagsIf_true (p : ProcState) (f : Flags) : p.setFlagsIf true f = p.setFlags f := rfl
@[simp] theorem ProcState.setFlagsIf_false (p : ProcState) (f : Flags) : p.setFlagsIf false f = p := rfl

@[simp] theorem ProcState.setFlagsIf_phys (p : ProcState) (sf : Bool) (x : Flags) : (p.setFlagsIf sf x).phys = p.phys := by
  cases sf <;> rfl
@[simp] theorem ProcState.setFlagsIf_spsr (p : ProcState) (sf : Bool) (x : Flags) : (p.setFlagsIf sf x).spsr = p.spsr := by
  cases sf <;> rfl
@[simp] theorem ProcState.setFlagsIf_pc (p : ProcState) (sf : Bool) (x : Flags) : (p.setFlagsIf sf x).pc = p.pc := by
  cases sf <;> rfl
@[simp] theorem ProcState.setFlagsIf_ts (p : ProcState) (sf : Bool) (x : Flags) : (p.setFlagsIf sf x).ts = p.ts := by
  cases sf <;> rfl
@[simp] theorem ProcState.setFlagsIf_halted (p : ProcState) (sf : Bool) (x : Flags) : (p.setFlagsIf sf x).halted = p.halted := by
  cases sf <;> rfl
@[simp] theorem ProcState.setFlagsIf_lastbus (p : ProcState) (sf : Bool) (x : Flags) : (p.setFlagsIf sf x).lastbus = p.lastbus := by
  cases sf <;> rfl

/-! ### Status words -/

@[simp] theorem Psr.withFlags_q (s : Psr) (x : Flags) : (s.withFlags x).q = s.q := rfl
@[simp] theorem Psr.withFlags_i (s : Psr) (x : Flags) : (s.withFlags x).i = s.i := rfl
@[simp] theorem Psr.withFlags_f (s : Psr) (x : Flags) : (s.withFlags x).f = s.f := rfl
@[simp] theorem Psr.withFlags_t (s : Psr) (x : Flags) : (s.withFlags x).t = s.t := rfl
@[simp] theorem Psr.withFlags_m (s : Psr) (x : Flags) : (s.withFlags x).m = s.m := rfl
@[simp] theorem Psr.withFlags_n (s : Psr) (x : Flags) : (s.withFlags x).n = x.n := rfl
@[simp] theorem Psr.withFlags_z (s : Psr) (x : Flags) : (s.withFlags x).z = x.z := rfl
@[simp] theorem Psr.withFlags_c (s : Psr) (x : Flags) : (s.withFlags x).c = x.c := rfl
@[simp] theorem Psr.withFlags_v (s : Psr) (x : Flags) : (s.withFlags x).v = x.v := rfl
@[simp] theorem ProcState.setFlagsIf_cpsr_q (p : ProcState) (sf : Bool) (x : Flags) :
    (p.setFlagsIf sf x).cpsr.q = p.cpsr.q := by
  cases sf <;> rfl
@[simp] theorem ProcState.setFlagsIf_cpsr_i (p : ProcState) (sf : Bool) (x : Flags) :
    (p.setFlagsIf sf x).cpsr.i = p.cpsr.i := by
  cases sf <;> rfl
@[simp] theorem ProcState.setFlagsIf_cpsr_f (p : ProcState) (sf : Bool) (x : Flags) :
    (p.setFlagsIf sf x).cpsr.f = p.cpsr.f := by
  cases sf <;> rfl
@[simp] theorem ProcState.setFlagsIf_cpsr_t (p : ProcState) (sf : Bool) (x : Flags) :
    (p.setFlagsIf sf x).cpsr.t = p.cpsr.t := by
  cases sf <;> rfl
@[simp] theorem ProcState.setFlagsIf_cpsr_m (p : ProcState) (sf : Bool) (x : Flags) :
    (p.setFlagsIf sf x).cpsr.m = p.cpsr.m := by
  cases sf <;> rfl

/-! ### State -/

@[simp] theorem State.withCpu_cfg (s : State) (g : ProcState → ProcState) : (s.withCpu g).cfg = s.cfg := rfl
@[simp] theorem State.withCpu_irqs (s : State) (g : ProcState → ProcState) : (s.withCpu g).irqs = s.irqs := rfl
@[simp] theorem State.withCpu_waits (s : State) (g : ProcState → ProcState) : (s.withCpu g).waits = s.waits := rfl
@[simp] theorem State.withCpu_maps (s : State) (g : ProcState → ProcState) : (s.withCpu g).maps = s.maps := rfl
@[simp] theorem State.withCpu_mem (s : State) (g : ProcState → ProcState) : (s.withCpu g).mem = s.mem := rfl
@[simp] theorem State.withCpu_systemTs (s : State) (g : ProcState → ProcState) : (s.withCpu g).systemTs = s.systemTs := rfl
@[simp] theorem State.withCpu_events (s : State) (g : ProcState → ProcState) : (s.withCpu g).events = s.events := rfl
@[simp] theorem State.withCpu_nextSeq (s : State) (g : ProcState → ProcState) : (s.withCpu g).nextSeq = s.nextSeq := rfl
@[simp] theorem State.withCpu_phase (s : State) (g : ProcState → ProcState) : (s.withCpu g).phase = s.phase := rfl
@[simp] theorem State.withCpu_cur (s : State) (g : ProcState → ProcState) : (s.withCpu g).cur = s.cur := rfl
@[simp] theorem State.withCpu_ir (s : State) (g : ProcState → ProcState) : (s.withCpu g).ir = s.ir := rfl
@[simp] theorem State.withCpu_inbox (s : State) (g : ProcState → ProcState) : (s.withCpu g).inbox = s.inbox := rfl
@[simp] theorem State.withCpu_outbox (s : State) (g : ProcState → ProcState) : (s.withCpu g).outbox = s.outbox := rfl
@[simp] theorem State.withCpu_draws (s : State) (g : ProcState → ProcState) : (s.withCpu g).draws = s.draws := rfl

@[simp] theorem State.withCpu_cpus (s : State) (g : ProcState → ProcState) :
    (s.withCpu g).cpus = s.cpus.modify s.cur g := rfl

theorem State.withCpu_cpu (s : State) (g : ProcState → ProcState) : (s.withCpu g).cpu = g s.cpu :=
  Pair.get_modify_same s.cpus s.cur g

theorem State.withCpu_other (s : State) (g : ProcState → ProcState) :
    (s.withCpu g).cpus.get s.cur.other = s.cpus.get s.cur.other := Pair.get_modify_other s.cpus s.cur g

@[simp] theorem State.withCpu_withCpu (s : State) (f g : ProcState → ProcState) :
    (s.withCpu f).withCpu g = s.withCpu (fun p => g (f p)) := by
  simp [State.withCpu]

@[simp] theorem State.advanceArm_cfg (s : State) : (s.advanceArm).cfg = s.cfg := rfl
@[simp] theorem State.advanceArm_irqs (s : State) : (s.advanceArm).irqs = s.irqs := rfl
@[simp] theorem State.advanceArm_waits (s : State) : (s.advanceArm).waits = s.waits := rfl
@[simp] theorem State.advanceArm_maps (s : State) : (s.advanceArm).maps = s.maps := rfl
@[simp] theorem State.advanceArm_mem (s : State) : (s.advanceArm).mem = s.mem := rfl
@[simp] theorem State.advanceArm_systemTs (s : State) : (s.advanceArm).systemTs = s.systemTs := rfl
@[simp] theorem State.advanceArm_events (s : State) : (s.advanceArm).events = s.events := rfl
@[simp] theorem State.advanceArm_nextSeq (s : State) : (s.advanceArm).nextSeq = s.nextSeq := rfl
@[simp] theorem State.advanceArm_phase (s : State) : (s.advanceArm).phase = s.phase := rfl
@[simp] theorem State.advanceArm_cur (s : State) : (s.advanceArm).cur = s.cur := rfl
@[simp] theorem State.advanceArm_ir (s : State) : (s.advanceArm).ir = s.ir := rfl
@[simp] theorem State.advanceArm_inbox (s : State) : (s.advanceArm).inbox = s.inbox := rfl
@[simp] theorem State.advanceArm_outbox (s : State) : (s.advanceArm).outbox = s.outbox := rfl
@[simp] theorem State.advanceArm_draws (s : State) : (s.advanceArm).draws = s.draws := rfl

@[simp] theorem State.advanceThumb_cfg (s : State) : (s.advanceThumb).cfg = s.cfg := rfl
@[simp] theorem State.advanceThumb_irqs (s : State) : (s.advanceThumb).irqs = s.irqs := rfl
@[simp] theorem State.advanceThumb_waits (s : State) : (s.advanceThumb).waits = s.waits := rfl
@[simp] theorem State.advanceThumb_maps (s : State) : (s.advanceThumb).maps = s.maps := rfl
@[simp] theorem State.advanceThumb_mem (s : State) : (s.advanceThumb).mem = s.mem := rfl
@[simp] theorem State.advanceThumb_systemTs (s : State) : (s.advanceThumb).systemTs = s.systemTs := rfl
@[simp] theorem State.advanceThumb_events (s : State) : (s.advanceThumb).events = s.events := rfl
@[simp] theorem State.advanceThumb_nextSeq (s : State) : (s.advanceThumb).nextSeq = s.nextSeq := rfl
@[simp] theorem State.advanceThumb_phase (s : State) : (s.advanceThumb).phase = s.phase := rfl
@[simp] theorem State.advanceThumb_cur (s : State) : (s.advanceThumb).cur = s.cur := rfl
@[simp] theorem State.advanceThumb_ir (s : State) : (s.advanceThumb).ir = s.ir := rfl
@[simp] theorem State.advanceThumb_inbox (s : State) : (s.advanceThumb).inbox = s.inbox := rfl
@[simp] theorem State.advanceThumb_outbox (s : State) : (s.advanceThumb).outbox = s.outbox := rfl
@[simp] theorem State.advanceThumb_draws (s : State) : (s.advanceThumb).draws = s.draws := rfl

@[simp] theorem State.setGpr_cfg (s : State) (i : Reg) (v : Word) : (s.setGpr i v).cfg = s.cfg := rfl
@[simp] theorem State.setGpr_irqs (s : State) (i : Reg) (v : Word) : (s.setGpr i v).irqs = s.irqs := rfl
@[simp] theorem State.setGpr_waits (s : State) (i : Reg) (v : Word) : (s.setGpr i v).waits = s.waits := rfl
@[simp] theorem State.setGpr_maps (s : State) (i : Reg) (v : Word) : (s.setGpr i v).maps = s.maps := rfl
@[simp] theorem State.setGpr_mem (s : State) (i : Reg) (v : Word) : (s.setGpr i v).mem = s.mem := rfl
@[simp] theorem State.setGpr_systemTs (s : State) (i : Reg) (v : Word) : (s.setGpr i v).systemTs = s.systemTs := rfl
@[simp] theorem State.setGpr_events (s : State) (i : Reg) (v : Word) : (s.setGpr i v).events = s.events := rfl
@[simp] theorem State.setGpr_nextSeq (s : State) (i : Reg) (v : Word) : (s.setGpr i v).nextSeq = s.nextSeq := rfl
@[simp] theorem State.setGpr_phase (s : State) (i : Reg) (v : Word) : (s.setGpr i v).phase = s.phase := rfl
@[simp] theorem State.setGpr_cur (s : State) (i : Reg) (v : Word) : (s.setGpr i v).cur = s.cur := rfl
@[simp] theorem State.setGpr_ir (s : State) (i : Reg) (v : Word) : (s.setGpr i v).ir = s.ir := rfl
@[simp] theorem State.setGpr_inbox (s : State) (i : Reg) (v : Word) : (s.setGpr i v).inbox = s.inbox := rfl
@[simp] theorem State.setGpr_outbox (s : State) (i : Reg) (v : Word) : (s.setGpr i v).outbox = s.outbox := rfl
@[simp] theorem State.setGpr_draws (s : State) (i : Reg) (v : Word) : (s.setGpr i v).draws = s.draws := rfl

@[simp] theorem State.charge_cfg (s : State) (n : Nat) : (s.charge n).cfg = s.cfg := rfl
@[simp] theorem State.charge_irqs (s : State) (n : Nat) : (s.charge n).irqs = s.irqs := rfl
@[simp] theorem State.charge_waits (s : State) (n : Nat) : (s.charge n).waits = s.waits := rfl
@[simp] theorem State.charge_maps (s : State) (n : Nat) : (s.charge n).maps = s.maps := rfl
@[simp] theorem State.charge_mem (s : State) (n : Nat) : (s.charge n).mem = s.mem := rfl
@[simp] theorem State.charge_systemTs (s : State) (n : Nat) : (s.charge n).systemTs = s.systemTs := rfl
@[simp] theorem State.charge_events (s : State) (n : Nat) : (s.charge n).events = s.events := rfl
@[simp] theorem State.charge_nextSeq (s : State) (n : Nat) : (s.charge n).nextSeq = s.nextSeq := rfl
@[simp] theorem State.charge_phase (s : State) (n : Nat) : (s.charge n).phase = s.phase := rfl
@[simp] theorem State.charge_cur (s : State) (n : Nat) : (s.charge n).cur = s.cur := rfl
@[simp] theorem State.charge_ir (s : State) (n : Nat) : (s.charge n).ir = s.ir := rfl
@[simp] theorem State.charge_inbox (s : State) (n : Nat) : (s.charge n).inbox = s.inbox := rfl
@[simp] theorem State.charge_outbox (s : State) (n : Nat) : (s.charge n).outbox = s.outbox := rfl
@[simp] theorem State.charge_draws (s : State) (n : Nat) : (s.charge n).draws = s.draws := rfl

@[simp] theorem State.halt_cfg (s : State) : (s.halt).cfg = s.cfg := rfl
@[simp] theorem State.halt_irqs (s : State) : (s.halt).irqs = s.irqs := rfl
@[simp] theorem State.halt_waits (s : State) : (s.halt).waits = s.waits := rfl
@[simp] theorem State.halt_maps (s : State) : (s.halt).maps = s.maps := rfl
@[simp] theorem State.halt_mem (s : State) : (s.halt).mem = s.mem := rfl
@[simp] theorem State.halt_systemTs (s : State) : (s.halt).systemTs = s.systemTs := rfl
@[simp] theorem State.halt_events (s : State) : (s.halt).events = s.events := rfl
@[simp] theorem State.halt_nextSeq (s : State) : (s.halt).nextSeq = s.nextSeq := rfl
@[simp] theorem State.halt_phase (s : State) : (s.halt).phase = s.phase := rfl
@[simp] theorem State.halt_cur (s : State) : (s.halt).cur = s.cur := rfl
@[simp] theorem State.halt_ir (s : State) : (s.halt).ir = s.ir := rfl
@[simp] theorem State.halt_inbox (s : State) : (s.halt).inbox = s.inbox := rfl
@[simp] theorem State.halt_outbox (s : State) : (s.halt).outbox = s.outbox := rfl
@[simp] theorem State.halt_draws (s : State) : (s.halt).draws = s.draws := rfl

@[simp] theorem State.account_cfg (s : State) (a : Word) (w : Width) (q : Bool) : (s.account a w q).cfg = s.cfg := rfl
@[simp] theorem State.account_irqs (s : State) (a : Word) (w : Width) (q : Bool) : (s.account a w q).irqs = s.irqs := rfl
@[simp] theorem State.account_waits (s : State) (a : Word) (w : Width) (q : Bool) : (s.account a w q).waits = s.waits := rfl
@[simp] theorem State.account_maps (s : State) (a : Word) (w : Width) (q : Bool) : (s.account a w q).maps = s.maps := rfl
@[simp] theorem State.account_mem (s : State) (a : Word) (w : Width) (q : Bool) : (s.account a w q).mem = s.mem := rfl
@[simp] theorem State.account_systemTs (s : State) (a : Word) (w : Width) (q : Bool) : (s.account a w q).systemTs = s.systemTs := rfl
@[simp] theorem State.account_events (s : State) (a : Word) (w : Width) (q : Bool) : (s.account a w q).events = s.events := rfl
@[simp] theorem State.account_nextSeq (s : State) (a : Word) (w : Width) (q : Bool) : (s.account a w q).nextSeq = s.nextSeq := rfl
@[simp] theorem State.account_phase (s : State) (a : Word) (w : Width) (q : Bool) : (s.account a w q).phase = s.phase := rfl
@[simp] theorem State.account_cur (s : State) (a : Word) (w : Width) (q : Bool) : (s.account a w q).cur = s.cur := rfl
@[simp] theorem State.account_ir (s : State) (a : Word) (w : Width) (q : Bool) : (s.account a w q).ir = s.ir := rfl
@[simp] theorem State.account_inbox (s : State) (a : Word) (w : Width) (q : Bool) : (s.account a w q).inbox = s.inbox := rfl
@[simp] theorem State.account_outbox (s : State) (a : Word) (w : Width) (q : Bool) : (s.account a w q).outbox = s.outbox := rfl
@[simp] theorem State.account_draws (s : State) (a : Word) (w : Width) (q : Bool) : (s.account a w q).draws = s.draws := rfl

@[simp] theorem State.jumpTo_cfg (s : State) (t : Bool) (v : Word) : (s.jumpTo t v).cfg = s.cfg := rfl
@[simp] theorem State.jumpTo_irqs (s : State) (t : Bool) (v : Word) : (s.jumpTo t v).irqs = s.irqs := rfl
@[simp] theorem State.jumpTo_waits (s : State) (t : Bool) (v : Word) : (s.jumpTo t v).waits = s.waits := rfl
@[simp] theorem State.jumpTo_maps (s : State) (t : Bool) (v : Word) : (s.jumpTo t v).maps = s.maps := rfl
@[simp] theorem State.jumpTo_mem (s : State) (t : Bool) (v : Word) : (s.jumpTo t v).mem = s.mem := rfl
@[simp] theorem State.jumpTo_systemTs (s : State) (t : Bool) (v : Word) : (s.jumpTo t v).systemTs = s.systemTs := rfl
@[simp] theorem State.jumpTo_events (s : State) (t : Bool) (v : Word) : (s.jumpTo t v).events = s.events := rfl
@[simp] theorem State.jumpTo_nextSeq (s : State) (t : Bool) (v : Word) : (s.jumpTo t v).nextSeq = s.nextSeq := rfl
@[simp] theorem State.jumpTo_phase (s : State) (t : Bool) (v : Word) : (s.jumpTo t v).phase = s.phase := rfl
@[simp] theorem State.jumpTo_cur (s : State) (t : Bool) (v : Word) : (s.jumpTo t v).cur = s.cur := rfl
@[simp] theorem State.jumpTo_ir (s : State) (t : Bool) (v : Word) : (s.jumpTo t v).ir = s.ir := rfl
@[simp] theorem State.jumpTo_inbox (s : State) (t : Bool) (v : Word) : (s.jumpTo t v).inbox = s.inbox := rfl
@[simp] theorem State.jumpTo_outbox (s : State) (t : Bool) (v : Word) : (s.jumpTo t v).outbox = s.outbox := rfl
@[simp] theorem State.jumpTo_draws (s : State) (t : Bool) (v : Word) : (s.jumpTo t v).draws = s.draws := rfl

@[simp] theorem State.enterException_cfg (s : State) (m : Mode) (off lr : Word) : (s.enterException m off lr).cfg = s.cfg := rfl
@[simp] theorem State.enterException_irqs (s : State) (m : Mode) (off lr : Word) : (s.enterException m off lr).irqs = s.irqs := rfl
@[simp] theorem State.enterException_waits (s : State) (m : Mode) (off lr : Word) : (s.enterException m off lr).waits = s.waits := rfl
@[simp] theorem State.enterException_maps (s : State) (m : Mode) (off lr : Word) : (s.enterException m off lr).maps = s.maps := rfl
@[simp] theorem State.enterException_mem (s : State) (m : Mode) (off lr : Word) : (s.enterException m off lr).mem = s.mem := rfl
@[simp] theorem State.enterException_systemTs (s : State) (m : Mode) (off lr : Word) : (s.enterException m off lr).systemTs = s.systemTs := rfl
@[simp] theorem State.enterException_events (s : State) (m : Mode) (off lr : Word) : (s.enterException m off lr).events = s.events := rfl
@[simp] theorem State.enterException_nextSeq (s : State) (m : Mode) (off lr : Word) : (s.enterException m off lr).nextSeq = s.nextSeq := rfl
@[simp] theorem State.enterException_phase (s : State) (m : Mode) (off lr : Word) : (s.enterException m off lr).phase = s.phase := rfl
@[simp] theorem State.enterException_cur (s : State) (m : Mode) (off lr : Word) : (s.enterException m off lr).cur = s.cur := rfl
@[simp] theorem State.enterException_ir (s : State) (m : Mode) (off lr : Word) : (s.enterException m off lr).ir = s.ir := rfl
@[simp] theorem State.enterException_inbox (s : State) (m : Mode) (off lr : Word) : (s.enterException m off lr).inbox = s.inbox := rfl
@[simp] theorem State.enterException_outbox (s : State) (m : Mode) (off lr : Word) : (s.enterException m off lr).outbox = s.outbox := rfl
@[simp] theorem State.enterException_draws (s : State) (m : Mode) (off lr : Word) : (s.enterException m off lr).draws = s.draws := rfl

@[simp] theorem State.withIr_cfg (s : State) (w : Word) : (s.withIr w).cfg = s.cfg := rfl
@[simp] theorem State.withIr_cpus (s : State) (w : Word) : (s.withIr w).cpus = s.cpus := rfl
@[simp] theorem State.withIr_irqs (s : State) (w : Word) : (s.withIr w).irqs = s.irqs := rfl
@[simp] theorem State.withIr_waits (s : State) (w : Word) : (s.withIr w).waits = s.waits := rfl
@[simp] theorem State.withIr_maps (s : State) (w : Word) : (s.withIr w).maps = s.maps := rfl
@[simp] theorem State.withIr_mem (s : State) (w : Word) : (s.withIr w).mem = s.mem := rfl
@[simp] theorem State.withIr_systemTs (s : State) (w : Word) : (s.withIr w).systemTs = s.systemTs := rfl
@[simp] theorem State.withIr_events (s : State) (w : Word) : (s.withIr w).events = s.events := rfl
@[simp] theorem State.withIr_nextSeq (s : State) (w : Word) : (s.withIr w).nextSeq = s.nextSeq := rfl
@[simp] theorem State.withIr_phase (s : State) (w : Word) : (s.withIr w).phase = s.phase := rfl
@[simp] theorem State.withIr_cur (s : State) (w : Word) : (s.withIr w).cur = s.cur := rfl
@[simp] theorem State.withIr_inbox (s : State) (w : Word) : (s.withIr w).inbox = s.inbox := rfl
@[simp] theorem State.withIr_outbox (s : State) (w : Word) : (s.withIr w).outbox = s.outbox := rfl
@[simp] theorem State.withIr_draws (s : State) (w : Word) : (s.withIr w).draws = s.draws := rfl
@[simp] theorem State.withIr_ir (s : State) (w : Word) : (s.withIr w).ir = w := rfl

end Machine
end Sys2Proof
end

