-- ==== Sys2Proof/Laws/Registers.lean ====
section
/-! SUPPORT. The banked register file (R24, R25, R27): reading after writing, within a mode and across modes. -/

namespace Sys2Proof.Machine

theorem ProcState.bankReg_setBankReg (p : ProcState) (m m' : BitVec 5) (i j : Reg) (v : Word) :
    (p.setBankReg m i v).bankReg m' j = if bank m i = bank m' j then v else p.bankReg m' j := by
  simp only [ProcState.bankReg, ProcState.setBankReg, Vector.get_eq_getElem, Vector.getElem_set]
  simp only [Fin.ext_iff]

@[simp] theorem ProcState.bankReg_setBankReg_same (p : ProcState) (m : BitVec 5) (i : Reg) (v : Word) :
    (p.setBankReg m i v).bankReg m i = v := by
  simp [ProcState.bankReg_setBankReg]

/-- Within one mode, different register numbers are different registers. -/
theorem bank_inj (m : BitVec 5) {i j : Reg} (h : bank m i = bank m j) : i = j := by
  have hv : i.toNat + bankOffset m i.toNat = j.toNat + bankOffset m j.toNat := congrArg Fin.val h
  have hi := i.isLt
  have hj := j.isLt
  apply BitVec.eq_of_toNat_eq
  unfold bankOffset at hv
  generalize i.toNat = a at *
  generalize j.toNat = b at *
  by_cases hf : m = Mode.fiq.bits
  · simp only [hf, if_true, and_true] at hv
    split at hv <;> split at hv <;> (try split at hv) <;> (try split at hv) <;> omega
  · simp only [hf, if_false, and_false] at hv
    split at hv <;> split at hv <;> (repeat' split at hv) <;> omega

theorem ProcState.bankReg_setBankReg_of_ne (p : ProcState) (m : BitVec 5) {i j : Reg} (v : Word) (h : j ≠ i) :
    (p.setBankReg m i v).bankReg m j = p.bankReg m j := by
  rw [ProcState.bankReg_setBankReg, if_neg]
  exact fun e => h (bank_inj m e).symm

/-- Changes that leave the register file alone leave every banked register alone. -/
@[simp] theorem ProcState.bankReg_advance (p : ProcState) (n : Word) (m : BitVec 5) (i : Reg) :
    (p.advance n).bankReg m i = p.bankReg m i := rfl
@[simp] theorem ProcState.bankReg_setFlags (p : ProcState) (f : Flags) (m : BitVec 5) (i : Reg) :
    (p.setFlags f).bankReg m i = p.bankReg m i := rfl
@[simp] theorem ProcState.bankReg_setFlagsIf (p : ProcState) (sf : Bool) (f : Flags) (m : BitVec 5) (i : Reg) :
    (p.setFlagsIf sf f).bankReg m i = p.bankReg m i := by cases sf <;> rfl
@[simp] theorem ProcState.bankReg_stickQ (p : ProcState) (sat : Bool) (m : BitVec 5) (i : Reg) :
    (p.stickQ sat).bankReg m i = p.bankReg m i := rfl
@[simp] theorem ProcState.bankReg_setT (p : ProcState) (t : Bool) (m : BitVec 5) (i : Reg) :
    (p.setT t).bankReg m i = p.bankReg m i := rfl
@[simp] theorem ProcState.bankReg_charge (p : ProcState) (n : Nat) (m : BitVec 5) (i : Reg) :
    (p.charge n).bankReg m i = p.bankReg m i := rfl

/-- USR and SYS have the same registers (R24). -/
theorem bank_sys (i : Reg) : bank Mode.sys.bits i = bank Mode.usr.bits i := by
  apply Fin.ext
  show _ + _ = _ + _
  unfold bankOffset
  simp [Mode.bits]

end Sys2Proof.Machine
end

