-- ==== Sys2Proof/Laws/Ops.lean ====
section
/-! SUPPORT. What each shared operation can do, said once: asking a collaborator, applying its calls, bus accesses, jumps,
exceptions. Keeps is what no operation of a running processor breaks. -/

namespace Sys2Proof.Machine

/-! ### Asking -/

@[simp] theorem State.ask_cpus (s : State) (q : Request) : (s.ask q).s.cpus = s.cpus := by
  unfold State.ask; split <;> rfl
@[simp] theorem State.ask_cur (s : State) (q : Request) : (s.ask q).s.cur = s.cur := by
  unfold State.ask; split <;> rfl
@[simp] theorem State.ask_cfg (s : State) (q : Request) : (s.ask q).s.cfg = s.cfg := by
  unfold State.ask; split <;> rfl
@[simp] theorem State.ask_mem (s : State) (q : Request) : (s.ask q).s.mem = s.mem := by
  unfold State.ask; split <;> rfl
@[simp] theorem State.ask_maps (s : State) (q : Request) : (s.ask q).s.maps = s.maps := by
  unfold State.ask; split <;> rfl
@[simp] theorem State.ask_irqs (s : State) (q : Request) : (s.ask q).s.irqs = s.irqs := by
  unfold State.ask; split <;> rfl
@[simp] theorem State.ask_waits (s : State) (q : Request) : (s.ask q).s.waits = s.waits := by
  unfold State.ask; split <;> rfl
@[simp] theorem State.ask_events (s : State) (q : Request) : (s.ask q).s.events = s.events := by
  unfold State.ask; split <;> rfl
@[simp] theorem State.ask_nextSeq (s : State) (q : Request) : (s.ask q).s.nextSeq = s.nextSeq := by
  unfold State.ask; split <;> rfl
@[simp] theorem State.ask_systemTs (s : State) (q : Request) : (s.ask q).s.systemTs = s.systemTs := by
  unfold State.ask; split <;> rfl
@[simp] theorem State.ask_phase (s : State) (q : Request) : (s.ask q).s.phase = s.phase := by
  unfold State.ask; split <;> rfl
@[simp] theorem State.ask_ir (s : State) (q : Request) : (s.ask q).s.ir = s.ir := by
  unfold State.ask; split <;> rfl

/-! ### What a running processor's operations keep -/

/-- The events' part of the invariant. -/
def EventsOk (s : State) : Prop :=
  s.events.Pairwise (fun e f => e.seq < f.seq) ∧ ∀ e ∈ s.events, e.seq < s.nextSeq

theorem EventsOk_schedule {s : State} (h : EventsOk s) (id act : Nat) : EventsOk (s.schedule id act) := by
  refine ⟨?_, ?_⟩
  · simp only [State.schedule, List.pairwise_append, List.mem_singleton, forall_eq]
    exact ⟨h.1, List.pairwise_singleton _ _, h.2⟩
  · intro e he
    simp only [State.schedule, List.mem_append, List.mem_singleton] at he ⊢
    rcases he with he | rfl
    · exact Nat.lt_succ_of_lt (h.2 e he)
    · exact Nat.lt_succ_self _

/-- What no operation of the running processor breaks: who runs, the parameters, the clock, the other processor, time that
never goes back, memory's canonical form, the event queue's order. -/
structure Keeps (s s' : State) : Prop where
  cur : s'.cur = s.cur
  cfg : s'.cfg = s.cfg
  systemTs : s'.systemTs = s.systemTs
  phase : s'.phase = s.phase
  other : s'.cpus.get s.cur.other = s.cpus.get s.cur.other
  ts : (s.cpus.get s.cur).ts ≤ (s'.cpus.get s.cur).ts
  mem : s.mem.wf → s'.mem.wf
  events : EventsOk s → EventsOk s'

theorem Keeps.refl (s : State) : Keeps s s := ⟨rfl, rfl, rfl, rfl, rfl, le_refl _, id, id⟩

theorem Keeps.trans {s t u : State} (h : Keeps s t) (k : Keeps t u) : Keeps s u where
  cur := k.cur.trans h.cur
  cfg := k.cfg.trans h.cfg
  systemTs := k.systemTs.trans h.systemTs
  phase := k.phase.trans h.phase
  other := by rw [← h.other, ← h.cur]; exact k.other
  ts := h.ts.trans (by rw [← h.cur]; exact k.ts)
  mem := k.mem ∘ h.mem
  events := k.events ∘ h.events

theorem keeps_withCpu (s : State) (f : ProcState → ProcState) (h : s.cpu.ts ≤ (f s.cpu).ts) :
    Keeps s (s.withCpu f) where
  cur := rfl
  cfg := rfl
  systemTs := rfl
  phase := rfl
  other := State.withCpu_other s f
  ts := by simpa using h
  mem := id
  events := id

theorem keeps_ask (s : State) (q : Request) : Keeps s (s.ask q).s where
  cur := by simp
  cfg := by simp
  systemTs := by simp
  phase := by simp
  other := by simp
  ts := by simp
  mem := by simp
  events := by simp [EventsOk]

theorem keeps_applyCall (s : State) (src : CallSource) (c : Call) : Keeps s (s.applyCall src c) := by
  cases c with
  | requestInterrupt p n =>
    simp only [State.applyCall, State.requestInterrupt]
    split
    · exact ⟨rfl, rfl, rfl, rfl, rfl, le_refl _, id, id⟩
    · exact Keeps.refl s
  | schedule id act =>
    exact ⟨rfl, rfl, rfl, rfl, rfl, le_refl _, fun h => h, fun h => EventsOk_schedule h id act⟩
  | writeCell cell v =>
    simp only [State.applyCall]
    split
    · exact Keeps.refl s
    · exact ⟨rfl, rfl, rfl, rfl, rfl, le_refl _, fun h => Memory.wf_set h cell v, fun h => h⟩
  | setWaitstate p r k c =>
    simp only [State.applyCall]
    split
    · exact ⟨rfl, rfl, rfl, rfl, rfl, le_refl _, fun h => h, fun h => h⟩
    · exact Keeps.refl s
  | halt =>
    simp only [State.applyCall]
    split
    · exact keeps_withCpu s _ (le_refl _)
    · exact Keeps.refl s
  | _ => exact ⟨rfl, rfl, rfl, rfl, rfl, le_refl _, fun h => h, fun h => h⟩

theorem keeps_applyCalls (s : State) (src : CallSource) (cs : List Call) : Keeps s (s.applyCalls src cs) := by
  induction cs generalizing s with
  | nil => exact Keeps.refl s
  | cons c cs ih => exact (keeps_applyCall s src c).trans (ih _)

theorem keeps_account (s : State) (a : Word) (w : Width) (q : Bool) : Keeps s (s.account a w q) :=
  keeps_withCpu s _ (Nat.le_add_right _ _)

theorem keeps_busRead (s : State) (a : Word) (w : Width) : Keeps s (s.busRead a w).s := by
  unfold State.busRead
  split
  · exact Keeps.refl s
  · exact (keeps_ask s _).trans (keeps_applyCalls _ _ _)

theorem keeps_busWrite (s : State) (a : Word) (w : Width) (v : Word) : Keeps s (s.busWrite a w v) := by
  unfold State.busWrite
  split
  · exact ⟨rfl, rfl, rfl, rfl, rfl, le_refl _, fun h => Memory.wf_writeCells h _ _, fun h => h⟩
  · exact (keeps_ask s _).trans (keeps_applyCalls _ _ _)

theorem keeps_memRead (s : State) (a : Word) (w : Width) (q : Bool) : Keeps s (s.memRead a w q).s :=
  (keeps_account s _ w q).trans (keeps_busRead _ _ w)

theorem keeps_memWrite (s : State) (a : Word) (w : Width) (v : Word) (q : Bool) : Keeps s (s.memWrite a w v q) :=
  (keeps_account s _ w q).trans (keeps_busWrite _ _ w v)

theorem keeps_load (s : State) (a : Word) (w : Width) : Keeps s (s.load a w).s := keeps_memRead s a w _

theorem keeps_store (s : State) (a : Word) (w : Width) (v : Word) : Keeps s (s.store a w v) := keeps_memWrite s a w v _

theorem keeps_setGpr (s : State) (i : Reg) (v : Word) : Keeps s (s.setGpr i v) := keeps_withCpu s _ (le_refl _)

theorem keeps_charge (s : State) (n : Nat) : Keeps s (s.charge n) := keeps_withCpu s _ (Nat.le_add_right _ _)

theorem keeps_jumpTo (s : State) (t : Bool) (v : Word) : Keeps s (s.jumpTo t v) := keeps_withCpu s _ (Nat.le_add_right _ _)

theorem keeps_interwork (s : State) (v : Word) : Keeps s (s.interwork v) :=
  (keeps_withCpu s _ (le_refl _)).trans (keeps_jumpTo _ _ _)

theorem keeps_advanceArm (s : State) : Keeps s s.advanceArm := keeps_withCpu s _ (le_refl _)

theorem keeps_advanceThumb (s : State) : Keeps s s.advanceThumb := keeps_withCpu s _ (le_refl _)

theorem keeps_enterException (s : State) (m : Mode) (off lr : Word) : Keeps s (s.enterException m off lr) :=
  keeps_withCpu s _ (le_refl _)

theorem keeps_enterSwi (s : State) (lr : Word) : Keeps s (s.enterSwi lr) :=
  (keeps_enterException s _ _ _).trans (keeps_charge _ _)

theorem keeps_enterIrq (s : State) : Keeps s s.enterIrq := (keeps_enterException s _ _ _).trans (keeps_charge _ _)

theorem keeps_pollIrq (s : State) : Keeps s s.pollIrq := by
  unfold State.pollIrq
  split
  · exact keeps_enterIrq s
  · exact Keeps.refl s

theorem keeps_applyHostWrites (s : State) (hs : List HostWrite) : Keeps s (s.applyHostWrites hs) := by
  induction hs generalizing s with
  | nil => exact Keeps.refl s
  | cons h hs ih =>
    refine Keeps.trans ?_ (ih _)
    cases h with
    | setReg m i v =>
      simp only [State.applyHostWrite]
      split
      · exact Keeps.refl s
      · exact keeps_withCpu s _ (le_refl _)
    | setCpsr v m => exact keeps_withCpu s _ (le_refl _)
    | setSpsr m v => exact keeps_withCpu s _ (le_refl _)
    | setHalted => exact keeps_withCpu s _ (le_refl _)
    | charge n => exact keeps_charge s n

@[simp] theorem modeValid_bits (m : Mode) : modeValid m.bits = true := by cases m <;> decide

/-- What no write of a BIOS handler touches: T, the pc, and that the mode is one of the seven (R28, R40, R410). -/
structure HostKeeps (s s' : State) : Prop where
  t : s'.cpu.cpsr.t = s.cpu.cpsr.t
  pc : s'.cpu.pc = s.cpu.pc
  mode : modeValid s.cpu.cpsr.m = true → modeValid s'.cpu.cpsr.m = true

theorem hostKeeps_withCpu (s : State) (f : ProcState → ProcState) (ht : (f s.cpu).cpsr.t = s.cpu.cpsr.t)
    (hpc : (f s.cpu).pc = s.cpu.pc) (hm : modeValid s.cpu.cpsr.m = true → modeValid (f s.cpu).cpsr.m = true) :
    HostKeeps s (s.withCpu f) := by
  constructor <;> rw [State.withCpu_cpu] <;> assumption

theorem hostKeeps_applyHostWrite (s : State) (h : HostWrite) : HostKeeps s (s.applyHostWrite h) := by
  cases h with
  | setReg m i v =>
    simp only [State.applyHostWrite]
    split
    · exact ⟨rfl, rfl, id⟩
    · exact hostKeeps_withCpu s _ rfl rfl id
  | setCpsr v m => exact hostKeeps_withCpu s _ rfl rfl fun _ => modeValid_bits m
  | _ => exact hostKeeps_withCpu s _ rfl rfl id

theorem hostKeeps_applyHostWrites (s : State) (hs : List HostWrite) : HostKeeps s (s.applyHostWrites hs) := by
  induction hs generalizing s with
  | nil => exact ⟨rfl, rfl, id⟩
  | cons h hs ih =>
    have one := hostKeeps_applyHostWrite s h
    have rest := ih (s.applyHostWrite h)
    exact ⟨rest.t.trans one.t, rest.pc.trans one.pc, rest.mode ∘ one.mode⟩

theorem keeps_softwareInterrupt (s : State) (n : BitVec 8) (next : Word) : Keeps s (s.softwareInterrupt n next) := by
  unfold State.softwareInterrupt
  split
  · exact (((keeps_ask s _).trans (keeps_applyCalls _ _ _)).trans (keeps_applyHostWrites _ _)).trans
      (keeps_withCpu _ _ (le_refl _))
  · exact keeps_enterSwi s next

theorem keeps_readBlock (s : State) (seq : Bool) (ps : List (Reg × Word)) : Keeps s (s.readBlock seq ps).s := by
  induction ps generalizing s seq with
  | nil => exact Keeps.refl s
  | cons x rest ih => exact (keeps_memRead s x.2 .word seq).trans (ih _ true)

theorem keeps_writeBlock (s : State) (val : Reg → Word) (seq : Bool) (ps : List (Reg × Word)) :
    Keeps s (s.writeBlock val seq ps) := by
  induction ps generalizing s seq with
  | nil => exact Keeps.refl s
  | cons x rest ih => exact (keeps_memWrite s x.2 .word (val x.1) seq).trans (ih _ true)

@[simp] theorem ProcState.writeRegs_ts (p : ProcState) (m : BitVec 5) (vs : List (Reg × Word)) :
    (p.writeRegs m vs).ts = p.ts := by
  induction vs generalizing p with
  | nil => rfl
  | cons x rest ih => simp only [ProcState.writeRegs]; rw [ih]; split <;> rfl

@[simp] theorem ProcState.writeRegs_cpsr (p : ProcState) (m : BitVec 5) (vs : List (Reg × Word)) :
    (p.writeRegs m vs).cpsr = p.cpsr := by
  induction vs generalizing p with
  | nil => rfl
  | cons x rest ih => simp only [ProcState.writeRegs]; rw [ih]; split <;> rfl

@[simp] theorem ProcState.writeRegs_spsr (p : ProcState) (m : BitVec 5) (vs : List (Reg × Word)) :
    (p.writeRegs m vs).spsr = p.spsr := by
  induction vs generalizing p with
  | nil => rfl
  | cons x rest ih => simp only [ProcState.writeRegs]; rw [ih]; split <;> rfl

@[simp] theorem ProcState.writeRegs_pc (p : ProcState) (m : BitVec 5) (vs : List (Reg × Word)) :
    (p.writeRegs m vs).pc = p.pc := by
  induction vs generalizing p with
  | nil => rfl
  | cons x rest ih => simp only [ProcState.writeRegs]; rw [ih]; split <;> rfl

theorem keeps_loadBlock (s : State) (m : BitVec 5) (p u w : Bool) (rn : Reg) (regs : List Reg) :
    Keeps s (s.loadBlock m p u w rn regs).s := by
  simp only [State.loadBlock]
  refine Keeps.trans ?_ (keeps_charge _ 1)
  refine Keeps.trans (t := (s.readBlock false (busOrder u (placed regs (blockLowest p u (s.cpu.gpr rn)
    (blockSize regs))))).s.withCpu (·.writeRegs m (s.readBlock false (busOrder u (placed regs (blockLowest p u
      (s.cpu.gpr rn) (blockSize regs))))).values)) ?_ ?_
  · exact (keeps_readBlock s false _).trans (keeps_withCpu _ _ (by simp))
  · split
    · exact keeps_setGpr _ _ _
    · exact Keeps.refl _

theorem keeps_storeBlock (s : State) (m : BitVec 5) (p u w : Bool) (rn : Reg) (regs : List Reg) :
    Keeps s (s.storeBlock m p u w rn regs) := by
  simp only [State.storeBlock]
  split
  · exact (keeps_writeBlock s _ false _).trans (keeps_setGpr _ _ _)
  · exact keeps_writeBlock s _ false _

/-! ### Memory alone behind an access -/

/-- A read that meets memory alone: the bytes there, nothing changed but the account of the access. -/
theorem State.memRead_of_cells {s : State} {a : Word} {w : Width} {q : Bool} {cs : List Nat}
    (h : s.cellsAt a w = some cs) :
    s.memRead a w q = ⟨s.mem.readCells cs, s.account (w.align a) w q⟩ := by
  unfold State.cellsAt at h
  simp [State.memRead, State.busRead, h]

/-- A write that meets memory alone: the bytes stored, nothing else changed but the account of the access. -/
theorem State.memWrite_of_cells {s : State} {a : Word} {w : Width} {q : Bool} {v : Word} {cs : List Nat}
    (h : s.cellsAt a w = some cs) :
    s.memWrite a w v q =
      { s.account (w.align a) w q with mem := s.mem.writeCells cs (bytesOf v w.size) } := by
  unfold State.cellsAt at h
  simp [State.memWrite, State.busWrite, h]

/-- Every entry of a waitstate table is at least one cycle, so every access takes time (R403, D34). -/
theorem State.account_ts_lt (s : State) (a : Word) (w : Width) (q : Bool) :
    (s.cpus.get s.cur).ts < ((s.account a w q).cpus.get s.cur).ts := by
  simp only [State.account, State.withCpu_cpus, Pair.get_modify_same, State.waitCost, Cycles.count]
  omega

/-! ### The cycles of a multiply -/

/-- The model's m is the one R442 gives by the range of the operand. -/
theorem multiplierCycles_eq_operandCycles (signed : Bool) (x : Word) :
    multiplierCycles signed x = operandCycles signed x := by
  have hx := x.isLt
  have zeros (k n : Nat) (h : k + n = 32) : x.extractLsb' k n = 0#n ↔ x.toNat < 2 ^ k := by
    rw [BitVec.toNat_eq, BitVec.extractLsb'_toNat, Nat.shiftRight_eq_div_pow, BitVec.toNat_ofNat, Nat.zero_mod,
      Nat.mod_eq_of_lt (Nat.div_lt_of_lt_mul (by rw [← Nat.pow_add, h]; exact hx)),
      Nat.div_eq_zero_iff_lt (Nat.two_pow_pos k)]
  have ones (k n : Nat) (h : k + n = 32) : x.extractLsb' k n = BitVec.allOnes n ↔ 2 ^ 32 - 2 ^ k ≤ x.toNat := by
    have hk := Nat.two_pow_pos k
    have hp : 2 ^ 32 = 2 ^ k * 2 ^ n := by rw [← Nat.pow_add, h]
    rw [BitVec.toNat_eq, BitVec.extractLsb'_toNat, Nat.shiftRight_eq_div_pow, BitVec.toNat_allOnes,
      Nat.mod_eq_of_lt (Nat.div_lt_of_lt_mul (by rw [← Nat.pow_add, h]; exact hx)), hp]
    have hlt : x.toNat / 2 ^ k < 2 ^ n := Nat.div_lt_of_lt_mul (by rw [← Nat.pow_add, h]; exact hx)
    rw [← Nat.mul_sub_one, Nat.mul_comm, ← Nat.le_div_iff_mul_le hk]
    omega
  simp only [multiplierCycles, operandCycles, zeros 8 24 rfl, zeros 16 16 rfl, zeros 24 8 rfl, ones 8 24 rfl,
    ones 16 16 rfl, ones 24 8 rfl]

end Sys2Proof.Machine
end

