-- ==== Sys2Proof/Laws/Exec.lean ====
section
/-! SUPPORT. Every instruction's next state keeps what no operation of a running processor breaks (Keeps): one lemma per shared
shape, then one over all instructions. -/

namespace Sys2Proof.Machine

/-- What a next state satisfies; a stop says nothing. -/
def After (r : Result) (P : State → Prop) : Prop :=
  match r with
  | .next s => P s
  | .fault _ => True
  | .refused _ => True

theorem After.elim {r : Result} {P : State → Prop} {s : State} (h : After r P) (e : r = .next s) : P s := by
  subst e; exact h

theorem after_fatal (s : State) (P : State → Prop) : After (fatal s) P := trivial

theorem after_inconsistent (s : State) (P : State → Prop) : After (inconsistent s) P := trivial

theorem after_ite {c : Prop} [Decidable c] {r r' : Result} {P : State → Prop} (h : c → After r P)
    (h' : ¬c → After r' P) : After (if c then r else r') P := by
  split
  · exact h ‹_›
  · exact h' ‹_›

theorem after_ifPassed {c : Cond} {s : State} {f : State → Result} {P : State → Prop}
    (h : After (f s) P) (h' : P s.advanceArm) : After (ifPassed c s f) P := after_ite (fun _ => h) fun _ => h'

theorem after_onlyIfA {s : State} {f : State → Result} {P : State → Prop} (h : After (f s) P) :
    After (onlyIfA s f) P := by
  unfold onlyIfA
  split
  · exact h
  · trivial

theorem after_transfer {p u w : Bool} {rn : Reg} {off : Word} {s : State} {f : Transfer → State → Result}
    {P : State → Prop} (h : ∀ x, After (f x s) P) : After (transfer p u w rn off s f) P :=
  after_ite (fun _ => trivial) fun _ => h _

theorem after_transferReg {p u w : Bool} {rn rm : Reg} {sh : BitVec 5} {ty : ShiftType} {s : State}
    {f : Transfer → State → Result} {P : State → Prop} (h : ∀ x, After (f x s) P) :
    After (transferReg p u w rn sh ty rm s f) P := after_ite (fun _ => trivial) fun _ => after_transfer h

theorem after_transferHalf {p u w : Bool} {rn : Reg} {off : HalfOffset} {s : State}
    {f : Transfer → State → Result} {P : State → Prop} (h : ∀ x, After (f x s) P) :
    After (transferHalf p u w rn off s f) P := by
  cases off with
  | imm v => exact after_transfer h
  | reg rm => exact after_ite (fun _ => trivial) fun _ => after_transfer h

/-! ### Keeps, shape by shape -/

theorem keeps_statusRestoreJump (s : State) (r : Word) : After (s.statusRestoreJump r) (Keeps s) := by
  unfold State.statusRestoreJump
  split
  · trivial
  · exact after_ite (fun _ => (keeps_withCpu s _ (le_refl _)).trans (keeps_jumpTo _ _ _)) fun _ => trivial

theorem keeps_finishDp (op : AluOp) (sf : Bool) (rd : Reg) (a : Word) (b : Shifted) (s : State) :
    After (finishDp op sf rd a b s) (Keeps s) := by
  unfold finishDp
  refine after_ite (fun _ => keeps_withCpu s _ (le_refl _)) fun _ => ?_
  refine after_ite (fun _ => after_ite (fun _ => keeps_statusRestoreJump s _) fun _ => keeps_jumpTo s _ _) fun _ => ?_
  exact keeps_withCpu s _ (by simp)

theorem After.keeps {r : Result} {s t : State} (h : Keeps s t) (k : After r (Keeps t)) : After r (Keeps s) := by
  cases r with
  | next u => exact h.trans k
  | fault _ => trivial
  | refused _ => trivial

theorem keeps_dpImm (op : AluOp) (sf : Bool) (rn rd : Reg) (rot : BitVec 4) (imm8 : BitVec 8) (s : State) :
    After (dpImm op sf rn rd rot imm8 s) (Keeps s) := keeps_finishDp _ _ _ _ _ s

theorem keeps_dpRsi (op : AluOp) (sf : Bool) (rn rd : Reg) (sh : BitVec 5) (ty : ShiftType) (rm : Reg) (s : State) :
    After (dpRsi op sf rn rd sh ty rm s) (Keeps s) := keeps_finishDp _ _ _ _ _ s

theorem keeps_dpRsr (op : AluOp) (sf : Bool) (rn rd rs : Reg) (ty : ShiftType) (rm : Reg) (s : State) :
    After (dpRsr op sf rn rd rs ty rm s) (Keeps s) :=
  after_ite (fun _ => trivial) fun _ => (keeps_finishDp _ _ _ _ _ _).keeps (keeps_charge s 1)

theorem keeps_spendCarry (s : State) (sf : Bool) : Keeps s (s.spendCarry sf) := by
  unfold State.spendCarry
  split
  · exact ⟨rfl, rfl, rfl, rfl, rfl, le_refl _, id, fun h => h⟩
  · exact Keeps.refl s

theorem keeps_finishMul (sf : Bool) (rd : Reg) (r : Word) (n : Nat) (s : State) :
    After (finishMul sf rd r n s) (Keeps s) :=
  (keeps_spendCarry s sf).trans (keeps_withCpu _ _ (by simp))

theorem keeps_finishLong (sf : Bool) (rdHi rdLo : Reg) (r : BitVec 64) (n : Nat) (s : State) :
    After (finishLong sf rdHi rdLo r n s) (Keeps s) :=
  (keeps_spendCarry s sf).trans (keeps_withCpu _ _ (by simp))

theorem keeps_longMultiply (sf : Bool) (rdHi rdLo rs rm : Reg) (r : BitVec 64) (n : Nat) (s : State) :
    After (longMultiply sf rdHi rdLo rs rm r n s) (Keeps s) :=
  after_ite (fun _ => trivial) fun _ => keeps_finishLong _ _ _ _ _ s

theorem keeps_finishSticky (rd : Reg) (x : Saturated) (n : Nat) (s : State) :
    After (finishSticky rd x n s) (Keeps s) := keeps_withCpu s _ (by simp)

theorem keeps_finishPlain (rd : Reg) (r : Word) (n : Nat) (s : State) :
    After (finishPlain rd r n s) (Keeps s) := keeps_withCpu s _ (by simp)

theorem keeps_saturating (rn rd rm : Reg) (f : Word → Word → Saturated) (s : State) :
    After (saturating rn rd rm f s) (Keeps s) := after_ite (fun _ => trivial) fun _ => keeps_finishSticky _ _ _ s

theorem keeps_writeBase (s : State) (rn : Reg) (x : Transfer) : Keeps s (s.writeBase rn x) := by
  unfold State.writeBase
  split
  · exact Keeps.refl s
  · exact keeps_setGpr s _ _

theorem keeps_loadPc (s : State) (v : Word) : Keeps s (s.loadPc v) := by
  unfold State.loadPc
  split
  · exact keeps_interwork s v
  · exact keeps_jumpTo s _ v

theorem keeps_loadWordRotated (s : State) (a : Word) : Keeps s (s.loadWordRotated a).s := keeps_load s a .word

theorem keeps_loadByte (s : State) (a : Word) : Keeps s (s.loadByte a).s := keeps_load s a .byte

theorem keeps_loadHalf (s : State) (a : Word) : Keeps s (s.loadHalf a).s := by
  unfold State.loadHalf
  split <;> exact keeps_load s a .half

theorem keeps_loadSignedByte (s : State) (a : Word) : Keeps s (s.loadSignedByte a).s := keeps_load s a .byte

theorem keeps_loadSignedHalf (s : State) (a : Word) : Keeps s (s.loadSignedHalf a).s := by
  unfold State.loadSignedHalf
  split
  · exact keeps_loadSignedByte s a
  · exact keeps_load s a .half

theorem keeps_doLdr (rd rn : Reg) (x : Transfer) (s : State) : After (doLdr rd rn x s) (Keeps s) := by
  have h : Keeps s (((s.loadWordRotated x.addr).s.writeBase rn x).charge 1) :=
    ((keeps_loadWordRotated s _).trans (keeps_writeBase _ _ _)).trans (keeps_charge _ _)
  exact after_ite (fun _ => h.trans (keeps_loadPc _ _)) fun _ => h.trans (keeps_withCpu _ _ (le_refl _))

theorem keeps_doStr (rd rn : Reg) (x : Transfer) (s : State) : After (doStr rd rn x s) (Keeps s) :=
  ((keeps_store s _ _ _).trans (keeps_writeBase _ _ _)).trans (keeps_advanceArm _)

theorem keeps_doLoad {f : State → Word → Access} (hf : ∀ s a, Keeps s (f s a).s) (rd rn : Reg) (x : Transfer)
    (s : State) : After (doLoad f rd rn x s) (Keeps s) :=
  after_ite (fun _ => trivial) fun _ =>
    (((hf s _).trans (keeps_writeBase _ _ _)).trans (keeps_charge _ _)).trans (keeps_withCpu _ _ (le_refl _))

theorem keeps_doStore (w : Width) (rd rn : Reg) (x : Transfer) (s : State) : After (doStore w rd rn x s) (Keeps s) :=
  after_ite (fun _ => trivial) fun _ =>
    ((keeps_store s _ _ _).trans (keeps_writeBase _ _ _)).trans (keeps_advanceArm _)

theorem keeps_doLdrd (rd rn : Reg) (x : Transfer) (s : State) : After (doLdrd rd rn x s) (Keeps s) :=
  after_ite (fun _ => trivial) fun _ =>
    (((((keeps_memRead s _ _ _).trans (keeps_memRead _ _ _ _)).trans (keeps_withCpu _ _ (le_refl _))).trans
      (keeps_writeBase _ _ _)).trans (keeps_charge _ _)).trans (keeps_advanceArm _)

theorem keeps_doStrd (rd rn : Reg) (x : Transfer) (s : State) : After (doStrd rd rn x s) (Keeps s) :=
  after_ite (fun _ => trivial) fun _ =>
    (((keeps_memWrite s _ _ _ _).trans (keeps_memWrite _ _ _ _ _)).trans (keeps_writeBase _ _ _)).trans
      (keeps_advanceArm _)

theorem keeps_thumbWrite (rd : LowReg) (x : AluResult) (n : Nat) (s : State) :
    After (thumbWrite rd x n s) (Keeps s) := keeps_withCpu s _ (by simp)

theorem keeps_thumbFlags (x : AluResult) (s : State) : After (thumbFlags x s) (Keeps s) :=
  keeps_withCpu s _ (le_refl _)

theorem keeps_thumbPlain (rd : Reg) (v : Word) (s : State) : After (thumbPlain rd v s) (Keeps s) :=
  keeps_withCpu s _ (le_refl _)

theorem keeps_thumbHighWrite (d : Reg) (v : Word) (s : State) : After (thumbHighWrite d v s) (Keeps s) :=
  after_ite (fun _ => keeps_jumpTo s _ _) fun _ => keeps_thumbPlain _ _ s

theorem keeps_thumbLoad {f : State → Word → Access} (hf : ∀ s a, Keeps s (f s a).s) (rd : LowReg) (a : Word)
    (s : State) : After (thumbLoad f rd a s) (Keeps s) := (hf s a).trans (keeps_withCpu _ _ (by simp))

theorem keeps_thumbStore (w : Width) (rd : LowReg) (a : Word) (s : State) : After (thumbStore w rd a s) (Keeps s) :=
  (keeps_store s _ _ _).trans (keeps_advanceThumb _)

theorem keeps_msrCpsr (mask : BitVec 4) (v : Word) (s : State) : After (msrCpsr mask v s) (Keeps s) :=
  after_ite (fun _ => trivial) fun _ => after_ite (fun _ => keeps_withCpu s _ (le_refl _)) fun _ => trivial

theorem keeps_msrSpsr (mask : BitVec 4) (v : Word) (s : State) : After (msrSpsr mask v s) (Keeps s) := by
  unfold msrSpsr
  split
  · trivial
  · exact keeps_withCpu s _ (le_refl _)

theorem keeps_execSwp (c : Cond) (rn rd rm : Reg) (s : State) : After (execSwp c rn rd rm s) (Keeps s) :=
  after_ifPassed (after_ite (fun _ => trivial) fun _ =>
    ((keeps_loadWordRotated s _).trans (keeps_store _ _ _ _)).trans (keeps_withCpu _ _ (by simp))) (keeps_advanceArm s)

theorem keeps_execSwpb (c : Cond) (rn rd rm : Reg) (s : State) : After (execSwpb c rn rd rm s) (Keeps s) :=
  after_ifPassed (after_ite (fun _ => trivial) fun _ =>
    ((keeps_loadByte s _).trans (keeps_store _ _ _ _)).trans (keeps_withCpu _ _ (by simp))) (keeps_advanceArm s)

theorem keeps_execLdm (c : Cond) (p u w : Bool) (rn : Reg) (list : BitVec 16) (s : State) :
    After (execLdm c p u w rn list s) (Keeps s) := by
  refine after_ifPassed (after_ite (fun _ => trivial) fun _ => ?_) (keeps_advanceArm s)
  have h := keeps_loadBlock s s.cpu.cpsr.m p u w rn (regsOf list)
  simp only
  split
  · exact h.trans (keeps_loadPc _ _)
  · exact h.trans (keeps_advanceArm _)

theorem keeps_execLdmS (c : Cond) (p u w : Bool) (rn : Reg) (list : BitVec 16) (s : State) :
    After (execLdmS c p u w rn list s) (Keeps s) := by
  refine after_ifPassed (after_ite (fun _ => trivial) fun _ => ?_) (keeps_advanceArm s)
  have h := keeps_loadBlock s (if list.getLsbD 15 then s.cpu.cpsr.m else Mode.usr.bits) p u w rn (regsOf list)
  simp only
  split
  · exact (keeps_statusRestoreJump _ _).keeps h
  · exact h.trans (keeps_advanceArm _)

theorem keeps_execMrs (c : Cond) (r : Bool) (rd : Reg) (s : State) : After (execMrs c r rd s) (Keeps s) := by
  refine after_ifPassed (after_ite (fun _ => trivial) fun _ => after_ite (fun _ => ?_) fun _ =>
    keeps_withCpu s _ (le_refl _)) (keeps_advanceArm s)
  split
  · trivial
  · exact keeps_withCpu s _ (le_refl _)

theorem keeps_execMrc (c : Cond) (opc1 : BitVec 3) (crn rd cp : Reg) (opc2 : BitVec 3) (crm : Reg) (s : State) :
    After (execMrc c opc1 crn rd cp opc2 crm s) (Keeps s) := by
  refine after_ifPassed (after_ite (fun _ => ?_) fun _ => trivial) (keeps_advanceArm s)
  refine ((keeps_ask s _).trans (keeps_applyCalls _ _ _)).trans (keeps_withCpu _ _ ?_)
  simp only [ProcState.advance_ts, ProcState.charge_ts]
  split <;> simp

theorem keeps_execMcr (c : Cond) (opc1 : BitVec 3) (crn rd cp : Reg) (opc2 : BitVec 3) (crm : Reg) (s : State) :
    After (execMcr c opc1 crn rd cp opc2 crm s) (Keeps s) := by
  refine after_ifPassed (after_ite (fun _ => ?_) fun _ => trivial) (keeps_advanceArm s)
  exact ((keeps_ask s _).trans (keeps_applyCalls _ _ _)).trans (keeps_withCpu _ _ (by simp))

theorem keeps_execPld (i u : Bool) (rn : Reg) (off12 : BitVec 12) (s : State) :
    After (execPld i u rn off12 s) (Keeps s) := by
  refine after_onlyIfA ?_
  split
  · trivial
  · exact keeps_advanceArm s

theorem keeps_execTPop (r : Bool) (rlist : BitVec 8) (s : State) : After (execTPop r rlist s) (Keeps s) := by
  refine after_ite (fun _ => trivial) fun _ => ?_
  have h := keeps_loadBlock s s.cpu.cpsr.m false true true 13#4 (regsOf (popList r rlist))
  simp only
  split
  · exact h.trans (keeps_interwork _ _)
  · exact h.trans (keeps_jumpTo _ _ _)
  · exact h.trans (keeps_advanceThumb _)

/-! ### All instructions -/

/-- The next state of every instruction keeps all of Keeps. -/
theorem exec_keeps (i : Instr) (s : State) : After (exec i s) (Keeps s) := by
  have adv := keeps_advanceArm s
  cases i with
  | andImm | eorImm | subImm | rsbImm | addImm | adcImm | sbcImm | rscImm | tstImm | teqImm | cmpImm | cmnImm
  | orrImm | movImm | bicImm | mvnImm =>
    simp only [exec, execAndImm, execEorImm, execSubImm, execRsbImm, execAddImm, execAdcImm, execSbcImm, execRscImm,
      execTstImm, execTeqImm, execCmpImm, execCmnImm, execOrrImm, execMovImm, execBicImm, execMvnImm]
    exact after_ifPassed (keeps_dpImm ..) adv
  | andRsi | eorRsi | subRsi | rsbRsi | addRsi | adcRsi | sbcRsi | rscRsi | tstRsi | teqRsi | cmpRsi | cmnRsi
  | orrRsi | movRsi | bicRsi | mvnRsi =>
    simp only [exec, execAndRsi, execEorRsi, execSubRsi, execRsbRsi, execAddRsi, execAdcRsi, execSbcRsi, execRscRsi,
      execTstRsi, execTeqRsi, execCmpRsi, execCmnRsi, execOrrRsi, execMovRsi, execBicRsi, execMvnRsi]
    exact after_ifPassed (keeps_dpRsi ..) adv
  | andRsr | eorRsr | subRsr | rsbRsr | addRsr | adcRsr | sbcRsr | rscRsr | tstRsr | teqRsr | cmpRsr | cmnRsr
  | orrRsr | movRsr | bicRsr | mvnRsr =>
    simp only [exec, execAndRsr, execEorRsr, execSubRsr, execRsbRsr, execAddRsr, execAdcRsr, execSbcRsr, execRscRsr,
      execTstRsr, execTeqRsr, execCmpRsr, execCmnRsr, execOrrRsr, execMovRsr, execBicRsr, execMvnRsr]
    exact after_ifPassed (keeps_dpRsr ..) adv
  | mrs =>
    exact keeps_execMrs ..
  | msrRegCpsr =>
    simp only [exec, execMsrRegCpsr]
    exact after_ifPassed (after_ite (fun _ => trivial) fun _ => keeps_msrCpsr ..) adv
  | msrRegSpsr =>
    simp only [exec, execMsrRegSpsr]
    exact after_ifPassed (after_ite (fun _ => trivial) fun _ => keeps_msrSpsr ..) adv
  | msrImm =>
    simp only [exec, execMsrImm]
    exact after_ifPassed (after_ite (fun _ => keeps_msrSpsr ..) fun _ => keeps_msrCpsr ..) adv
  | bx =>
    simp only [exec, execBx]
    exact after_ifPassed (keeps_interwork ..) adv
  | blxReg =>
    simp only [exec, execBlxReg]
    exact after_onlyIfA (after_ifPassed (after_ite (fun _ => trivial) fun _ =>
      (keeps_setGpr ..).trans (keeps_interwork ..)) adv)
  | clz | smulwY | smulXy =>
    simp only [exec, execClz, execSmulwY, execSmulXy]
    exact after_onlyIfA (after_ifPassed (after_ite (fun _ => trivial) fun _ => keeps_finishPlain ..) adv)
  | qadd | qsub | qdadd | qdsub =>
    simp only [exec, execQadd, execQsub, execQdadd, execQdsub]
    exact after_onlyIfA (after_ifPassed (keeps_saturating ..) adv)
  | bkpt =>
    simp only [exec, execBkpt]
    exact after_onlyIfA (after_ifPassed trivial adv)
  | smlaXy | smlawY =>
    simp only [exec, execSmlaXy, execSmlawY]
    exact after_onlyIfA (after_ifPassed (after_ite (fun _ => trivial) fun _ => keeps_finishSticky ..) adv)
  | smlalXy =>
    simp only [exec, execSmlalXy]
    exact after_onlyIfA (after_ifPassed (keeps_longMultiply ..) adv)
  | mul | mla =>
    simp only [exec, execMul, execMla]
    exact after_ifPassed (after_ite (fun _ => trivial) fun _ => keeps_finishMul ..) adv
  | umull | umlal | smull | smlal =>
    simp only [exec, execUmull, execUmlal, execSmull, execSmlal]
    exact after_ifPassed (keeps_longMultiply ..) adv
  | swp =>
    exact keeps_execSwp ..
  | swpb =>
    exact keeps_execSwpb ..
  | ldrh =>
    simp only [exec, execLdrh]
    exact after_ifPassed (after_transferHalf fun _ => keeps_doLoad keeps_loadHalf ..) adv
  | strh =>
    simp only [exec, execStrh]
    exact after_ifPassed (after_transferHalf fun _ => keeps_doStore ..) adv
  | ldrsb =>
    simp only [exec, execLdrsb]
    exact after_ifPassed (after_transferHalf fun _ => keeps_doLoad keeps_loadSignedByte ..) adv
  | ldrsh =>
    simp only [exec, execLdrsh]
    exact after_ifPassed (after_transferHalf fun _ => keeps_doLoad keeps_loadSignedHalf ..) adv
  | ldrd =>
    simp only [exec, execLdrd]
    exact after_onlyIfA (after_ifPassed (after_transferHalf fun _ => keeps_doLdrd ..) adv)
  | strd =>
    simp only [exec, execStrd]
    exact after_onlyIfA (after_ifPassed (after_transferHalf fun _ => keeps_doStrd ..) adv)
  | ldrImm | ldrtImm =>
    simp only [exec, execLdrImm, execLdrtImm]
    exact after_ifPassed (after_transfer fun _ => keeps_doLdr ..) adv
  | strImm | strtImm =>
    simp only [exec, execStrImm, execStrtImm]
    exact after_ifPassed (after_transfer fun _ => keeps_doStr ..) adv
  | ldrbImm | ldrbtImm =>
    simp only [exec, execLdrbImm, execLdrbtImm]
    exact after_ifPassed (after_transfer fun _ => keeps_doLoad keeps_loadByte ..) adv
  | strbImm | strbtImm =>
    simp only [exec, execStrbImm, execStrbtImm]
    exact after_ifPassed (after_transfer fun _ => keeps_doStore ..) adv
  | ldrReg | ldrtReg =>
    simp only [exec, execLdrReg, execLdrtReg]
    exact after_ifPassed (after_transferReg fun _ => keeps_doLdr ..) adv
  | strReg | strtReg =>
    simp only [exec, execStrReg, execStrtReg]
    exact after_ifPassed (after_transferReg fun _ => keeps_doStr ..) adv
  | ldrbReg | ldrbtReg =>
    simp only [exec, execLdrbReg, execLdrbtReg]
    exact after_ifPassed (after_transferReg fun _ => keeps_doLoad keeps_loadByte ..) adv
  | strbReg | strbtReg =>
    simp only [exec, execStrbReg, execStrbtReg]
    exact after_ifPassed (after_transferReg fun _ => keeps_doStore ..) adv
  | ldm =>
    exact keeps_execLdm ..
  | ldmS =>
    exact keeps_execLdmS ..
  | stm | stmS =>
    simp only [exec, execStm, execStmS]
    exact after_ifPassed (after_ite (fun _ => trivial) fun _ => (keeps_storeBlock ..).trans (keeps_advanceArm _)) adv
  | b =>
    simp only [exec, execB]
    exact after_ifPassed (keeps_jumpTo ..) adv
  | bl =>
    simp only [exec, execBl]
    exact after_ifPassed ((keeps_setGpr ..).trans (keeps_jumpTo ..)) adv
  | blxImm | tBlxSuffix =>
    simp only [exec, execBlxImm, execTBlxSuffix]
    exact after_onlyIfA (((keeps_setGpr ..).trans (keeps_withCpu _ _ (le_refl _))).trans (keeps_jumpTo ..))
  | pld ri u rn off12 =>
    exact keeps_execPld ri u rn off12 s
  | swi =>
    simp only [exec, execSwi]
    exact after_ifPassed (keeps_softwareInterrupt ..) adv
  | mcr =>
    exact keeps_execMcr ..
  | mrc =>
    exact keeps_execMrc ..
  | cdp | mcrrMrrc | ldcStc =>
    simp only [exec, execCdp, execMcrrMrrc, execLdcStc]
    exact after_ifPassed trivial adv
  | tLslImm | tLsrImm | tAsrImm | tAddReg | tSubReg | tAddImm3 | tSubImm3 | tMovImm | tAddImm8 | tSubImm8 | tAnd
  | tEor | tLslReg | tLsrReg | tAsrReg | tAdc | tSbc | tRor | tNeg | tOrr | tBic | tMvn =>
    simp only [exec, execTLslImm, execTLsrImm, execTAsrImm, execTAddReg, execTSubReg, execTAddImm3, execTSubImm3,
      execTMovImm, execTAddImm8, execTSubImm8, execTAnd, execTEor, execTLslReg, execTLsrReg, execTAsrReg, execTAdc,
      execTSbc, execTRor, execTNeg, execTOrr, execTBic, execTMvn]
    exact keeps_thumbWrite ..
  | tCmpImm | tTst | tCmpReg | tCmn | tCmpHi =>
    simp only [exec, execTCmpImm, execTTst, execTCmpReg, execTCmn, execTCmpHi]
    exact keeps_thumbFlags ..
  | tMul =>
    simp only [exec, execTMul]
    exact (keeps_spendCarry s true).trans (keeps_withCpu _ _ (by simp))
  | tAddHi | tMovHi =>
    simp only [exec, execTAddHi, execTMovHi]
    exact keeps_thumbHighWrite ..
  | tBx =>
    simp only [exec, execTBx]
    exact keeps_interwork ..
  | tBlxReg =>
    simp only [exec, execTBlxReg]
    exact after_onlyIfA (after_ite (fun _ => trivial) fun _ => (keeps_setGpr ..).trans (keeps_interwork ..))
  | tLdrPc | tLdrReg | tLdrImm | tLdrSp =>
    simp only [exec, execTLdrPc, execTLdrReg, execTLdrImm, execTLdrSp]
    exact keeps_thumbLoad keeps_loadWordRotated ..
  | tStrReg | tStrbReg | tStrhReg | tStrImm | tStrbImm | tStrhImm | tStrSp =>
    simp only [exec, execTStrReg, execTStrbReg, execTStrhReg, execTStrImm, execTStrbImm, execTStrhImm, execTStrSp]
    exact keeps_thumbStore ..
  | tLdrbReg | tLdrbImm =>
    simp only [exec, execTLdrbReg, execTLdrbImm]
    exact keeps_thumbLoad keeps_loadByte ..
  | tLdrhReg | tLdrhImm =>
    simp only [exec, execTLdrhReg, execTLdrhImm]
    exact keeps_thumbLoad keeps_loadHalf ..
  | tLdsbReg =>
    simp only [exec, execTLdsbReg]
    exact keeps_thumbLoad keeps_loadSignedByte ..
  | tLdshReg =>
    simp only [exec, execTLdshReg]
    exact keeps_thumbLoad keeps_loadSignedHalf ..
  | tAddPc | tAddSp | tAddSpImm =>
    simp only [exec, execTAddPc, execTAddSp, execTAddSpImm]
    exact keeps_thumbPlain ..
  | tPush | tStmia =>
    simp only [exec, execTPush, execTStmia]
    exact after_ite (fun _ => trivial) fun _ => (keeps_storeBlock ..).trans (keeps_advanceThumb _)
  | tPop =>
    exact keeps_execTPop ..
  | tBkpt =>
    simp only [exec, execTBkpt]
    trivial
  | tLdmia =>
    simp only [exec, execTLdmia]
    exact after_ite (fun _ => trivial) fun _ => (keeps_loadBlock ..).trans (keeps_advanceThumb _)
  | tBcond =>
    simp only [exec, execTBcond]
    exact after_ite (fun _ => keeps_jumpTo ..) fun _ => keeps_advanceThumb s
  | tSwi =>
    simp only [exec, execTSwi]
    exact keeps_softwareInterrupt ..
  | tB =>
    simp only [exec, execTB]
    exact keeps_jumpTo ..
  | tBlPrefix =>
    simp only [exec, execTBlPrefix]
    exact keeps_withCpu s _ (le_refl _)
  | tBlSuffix =>
    simp only [exec, execTBlSuffix]
    exact (keeps_setGpr ..).trans (keeps_jumpTo ..)

end Sys2Proof.Machine
end

