-- ==== Sys2Proof/Laws/PerInstr.lean ====
section
/-! SUPPORT. What holds of every instruction as syntax, one lemma per constructor: CodeShape, the length of its code and where
its condition stands (R90, R91, R93). -/

namespace Sys2Proof.Laws.CodeShape

open Sys2Proof Sys2Proof.Machine

/-- The code is 4 bytes long in the ARM set and 2 in the Thumb set (R90); an ARM word has in bits 31:28 its condition, or
0b1111 if it has none (R91, R93). -/
def Statement (i : Instr) : Prop :=
  (encode i).bytes.length = (if isThumb i then 2 else 4) ∧
    ∀ w, encode i = .arm w → w.extractLsb' 28 4 = (match i.condition with | some c => c.bits | none => 0xF#4)

/-- The length follows from which set the code is of. -/
theorem of_arm {i : Instr}
    (k : ∀ {w}, encode i = .arm w → w.extractLsb' 28 4 = (match i.condition with | some c => c.bits | none => 0xF#4)) :
    Statement i := by
  refine ⟨?_, fun _ h => k h⟩
  unfold isThumb
  cases encode i <;> rfl

/-- A Thumb halfword has no condition field to look at. -/
theorem of_thumb {i : Instr} {h : Half} (e : encode i = .thumb h) : Statement i :=
  ⟨by simp [isThumb, e, Code.bytes], fun w hw => by rw [e] at hw; cases hw⟩

/-- The four bits above the low n bits of an append, step by step from the right. -/
theorem top {n m k : Nat} {x : BitVec n} {y : BitVec m} (h : m ≤ k) :
    (x ++ y).extractLsb' k 4 = x.extractLsb' (k - m) 4 := BitVec.extractLsb'_append_eq_of_le h

theorem encDpImm_top {op : BitVec 4} {c : Cond} {sf : Bool} {rn rd : Reg} {rot : BitVec 4} {imm8 : BitVec 8} {v : Word}
    (h : encDpImm op c sf rn rd rot imm8 = .arm v) : v.extractLsb' 28 4 = c.bits := by
  cases h; simp only [top, Nat.reduceLeDiff, Nat.reduceSub, BitVec.extractLsb'_eq_self]

theorem encDpRsi_top {op : BitVec 4} {c : Cond} {sf : Bool} {rn rd : Reg} {sh : BitVec 5} {ty : ShiftType} {rm : Reg}
    {v : Word}
    (h : encDpRsi op c sf rn rd sh ty rm = .arm v) : v.extractLsb' 28 4 = c.bits := by
  cases h; simp only [top, Nat.reduceLeDiff, Nat.reduceSub, BitVec.extractLsb'_eq_self]

theorem encDpRsr_top {op : BitVec 4} {c : Cond} {sf : Bool} {rn rd rs : Reg} {ty : ShiftType} {rm : Reg} {v : Word}
    (h : encDpRsr op c sf rn rd rs ty rm = .arm v) : v.extractLsb' 28 4 = c.bits := by
  cases h; simp only [top, Nat.reduceLeDiff, Nat.reduceSub, BitVec.extractLsb'_eq_self]

theorem encMisc_top {c : Cond} {op : BitVec 2} {f3 f2 f1 low f0 : BitVec 4} {v : Word}
    (h : encMisc c op f3 f2 f1 low f0 = .arm v) : v.extractLsb' 28 4 = c.bits := by
  cases h; simp only [top, Nat.reduceLeDiff, Nat.reduceSub, BitVec.extractLsb'_eq_self]

theorem encMul_top {c : Cond} {hi8 : BitVec 8} {f3 f2 f1 rm : BitVec 4} {v : Word}
    (h : encMul c hi8 f3 f2 f1 rm = .arm v) : v.extractLsb' 28 4 = c.bits := by
  cases h; simp only [top, Nat.reduceLeDiff, Nat.reduceSub, BitVec.extractLsb'_eq_self]

theorem encHalf_top {c : Cond} {p u w l : Bool} {sh : BitVec 2} {rn rd : Reg} {off : HalfOffset} {v : Word}
    (h : encHalf c p u w l sh rn rd off = .arm v) : v.extractLsb' 28 4 = c.bits := by
  cases off <;> (cases h; simp only [top, Nat.reduceLeDiff, Nat.reduceSub, BitVec.extractLsb'_eq_self])

theorem encTransferImm_top {c : Cond} {p u b w l : Bool} {rn rd : Reg} {off : BitVec 12} {v : Word}
    (h : encTransferImm c p u b w l rn rd off = .arm v) : v.extractLsb' 28 4 = c.bits := by
  cases h; simp only [top, Nat.reduceLeDiff, Nat.reduceSub, BitVec.extractLsb'_eq_self]

theorem encTransferReg_top {c : Cond} {p u b w l : Bool} {rn rd : Reg} {sh : BitVec 5} {ty : ShiftType} {rm : Reg}
    {v : Word}
    (h : encTransferReg c p u b w l rn rd sh ty rm = .arm v) : v.extractLsb' 28 4 = c.bits := by
  cases h; simp only [top, Nat.reduceLeDiff, Nat.reduceSub, BitVec.extractLsb'_eq_self]

theorem encBlock_top {c : Cond} {p u s w l : Bool} {rn : Reg} {list : BitVec 16} {v : Word}
    (h : encBlock c p u s w l rn list = .arm v) : v.extractLsb' 28 4 = c.bits := by
  cases h; simp only [top, Nat.reduceLeDiff, Nat.reduceSub, BitVec.extractLsb'_eq_self]

theorem encCoprocessorMove_top {c : Cond} {opc1 : BitVec 3} {l : Bool} {crn rd cp : Reg} {opc2 : BitVec 3} {crm : Reg}
    {v : Word}
    (h : encCoprocessorMove c opc1 l crn rd cp opc2 crm = .arm v) : v.extractLsb' 28 4 = c.bits := by
  cases h; simp only [top, Nat.reduceLeDiff, Nat.reduceSub, BitVec.extractLsb'_eq_self]

/-! ### One lemma per constructor -/

theorem andImm (c : Cond) (sf : Bool) (rn : Reg) (rd : Reg) (rot : BitVec 4) (imm8 : BitVec 8) :
    Statement (.andImm c sf rn rd rot imm8) := of_arm fun h => encDpImm_top h
theorem andRsi (c : Cond) (sf : Bool) (rn : Reg) (rd : Reg) (sh : BitVec 5) (ty : ShiftType) (rm : Reg) :
    Statement (.andRsi c sf rn rd sh ty rm) := of_arm fun h => encDpRsi_top h
theorem andRsr (c : Cond) (sf : Bool) (rn : Reg) (rd : Reg) (rs : Reg) (ty : ShiftType) (rm : Reg) :
    Statement (.andRsr c sf rn rd rs ty rm) := of_arm fun h => encDpRsr_top h
theorem eorImm (c : Cond) (sf : Bool) (rn : Reg) (rd : Reg) (rot : BitVec 4) (imm8 : BitVec 8) :
    Statement (.eorImm c sf rn rd rot imm8) := of_arm fun h => encDpImm_top h
theorem eorRsi (c : Cond) (sf : Bool) (rn : Reg) (rd : Reg) (sh : BitVec 5) (ty : ShiftType) (rm : Reg) :
    Statement (.eorRsi c sf rn rd sh ty rm) := of_arm fun h => encDpRsi_top h
theorem eorRsr (c : Cond) (sf : Bool) (rn : Reg) (rd : Reg) (rs : Reg) (ty : ShiftType) (rm : Reg) :
    Statement (.eorRsr c sf rn rd rs ty rm) := of_arm fun h => encDpRsr_top h
theorem subImm (c : Cond) (sf : Bool) (rn : Reg) (rd : Reg) (rot : BitVec 4) (imm8 : BitVec 8) :
    Statement (.subImm c sf rn rd rot imm8) := of_arm fun h => encDpImm_top h
theorem subRsi (c : Cond) (sf : Bool) (rn : Reg) (rd : Reg) (sh : BitVec 5) (ty : ShiftType) (rm : Reg) :
    Statement (.subRsi c sf rn rd sh ty rm) := of_arm fun h => encDpRsi_top h
theorem subRsr (c : Cond) (sf : Bool) (rn : Reg) (rd : Reg) (rs : Reg) (ty : ShiftType) (rm : Reg) :
    Statement (.subRsr c sf rn rd rs ty rm) := of_arm fun h => encDpRsr_top h
theorem rsbImm (c : Cond) (sf : Bool) (rn : Reg) (rd : Reg) (rot : BitVec 4) (imm8 : BitVec 8) :
    Statement (.rsbImm c sf rn rd rot imm8) := of_arm fun h => encDpImm_top h
theorem rsbRsi (c : Cond) (sf : Bool) (rn : Reg) (rd : Reg) (sh : BitVec 5) (ty : ShiftType) (rm : Reg) :
    Statement (.rsbRsi c sf rn rd sh ty rm) := of_arm fun h => encDpRsi_top h
theorem rsbRsr (c : Cond) (sf : Bool) (rn : Reg) (rd : Reg) (rs : Reg) (ty : ShiftType) (rm : Reg) :
    Statement (.rsbRsr c sf rn rd rs ty rm) := of_arm fun h => encDpRsr_top h
theorem addImm (c : Cond) (sf : Bool) (rn : Reg) (rd : Reg) (rot : BitVec 4) (imm8 : BitVec 8) :
    Statement (.addImm c sf rn rd rot imm8) := of_arm fun h => encDpImm_top h
theorem addRsi (c : Cond) (sf : Bool) (rn : Reg) (rd : Reg) (sh : BitVec 5) (ty : ShiftType) (rm : Reg) :
    Statement (.addRsi c sf rn rd sh ty rm) := of_arm fun h => encDpRsi_top h
theorem addRsr (c : Cond) (sf : Bool) (rn : Reg) (rd : Reg) (rs : Reg) (ty : ShiftType) (rm : Reg) :
    Statement (.addRsr c sf rn rd rs ty rm) := of_arm fun h => encDpRsr_top h
theorem adcImm (c : Cond) (sf : Bool) (rn : Reg) (rd : Reg) (rot : BitVec 4) (imm8 : BitVec 8) :
    Statement (.adcImm c sf rn rd rot imm8) := of_arm fun h => encDpImm_top h
theorem adcRsi (c : Cond) (sf : Bool) (rn : Reg) (rd : Reg) (sh : BitVec 5) (ty : ShiftType) (rm : Reg) :
    Statement (.adcRsi c sf rn rd sh ty rm) := of_arm fun h => encDpRsi_top h
theorem adcRsr (c : Cond) (sf : Bool) (rn : Reg) (rd : Reg) (rs : Reg) (ty : ShiftType) (rm : Reg) :
    Statement (.adcRsr c sf rn rd rs ty rm) := of_arm fun h => encDpRsr_top h
theorem sbcImm (c : Cond) (sf : Bool) (rn : Reg) (rd : Reg) (rot : BitVec 4) (imm8 : BitVec 8) :
    Statement (.sbcImm c sf rn rd rot imm8) := of_arm fun h => encDpImm_top h
theorem sbcRsi (c : Cond) (sf : Bool) (rn : Reg) (rd : Reg) (sh : BitVec 5) (ty : ShiftType) (rm : Reg) :
    Statement (.sbcRsi c sf rn rd sh ty rm) := of_arm fun h => encDpRsi_top h
theorem sbcRsr (c : Cond) (sf : Bool) (rn : Reg) (rd : Reg) (rs : Reg) (ty : ShiftType) (rm : Reg) :
    Statement (.sbcRsr c sf rn rd rs ty rm) := of_arm fun h => encDpRsr_top h
theorem rscImm (c : Cond) (sf : Bool) (rn : Reg) (rd : Reg) (rot : BitVec 4) (imm8 : BitVec 8) :
    Statement (.rscImm c sf rn rd rot imm8) := of_arm fun h => encDpImm_top h
theorem rscRsi (c : Cond) (sf : Bool) (rn : Reg) (rd : Reg) (sh : BitVec 5) (ty : ShiftType) (rm : Reg) :
    Statement (.rscRsi c sf rn rd sh ty rm) := of_arm fun h => encDpRsi_top h
theorem rscRsr (c : Cond) (sf : Bool) (rn : Reg) (rd : Reg) (rs : Reg) (ty : ShiftType) (rm : Reg) :
    Statement (.rscRsr c sf rn rd rs ty rm) := of_arm fun h => encDpRsr_top h
theorem tstImm (c : Cond) (rn : Reg) (rot : BitVec 4) (imm8 : BitVec 8) :
    Statement (.tstImm c rn rot imm8) := of_arm fun h => encDpImm_top h
theorem tstRsi (c : Cond) (rn : Reg) (sh : BitVec 5) (ty : ShiftType) (rm : Reg) :
    Statement (.tstRsi c rn sh ty rm) := of_arm fun h => encDpRsi_top h
theorem tstRsr (c : Cond) (rn : Reg) (rs : Reg) (ty : ShiftType) (rm : Reg) :
    Statement (.tstRsr c rn rs ty rm) := of_arm fun h => encDpRsr_top h
theorem teqImm (c : Cond) (rn : Reg) (rot : BitVec 4) (imm8 : BitVec 8) :
    Statement (.teqImm c rn rot imm8) := of_arm fun h => encDpImm_top h
theorem teqRsi (c : Cond) (rn : Reg) (sh : BitVec 5) (ty : ShiftType) (rm : Reg) :
    Statement (.teqRsi c rn sh ty rm) := of_arm fun h => encDpRsi_top h
theorem teqRsr (c : Cond) (rn : Reg) (rs : Reg) (ty : ShiftType) (rm : Reg) :
    Statement (.teqRsr c rn rs ty rm) := of_arm fun h => encDpRsr_top h
theorem cmpImm (c : Cond) (rn : Reg) (rot : BitVec 4) (imm8 : BitVec 8) :
    Statement (.cmpImm c rn rot imm8) := of_arm fun h => encDpImm_top h
theorem cmpRsi (c : Cond) (rn : Reg) (sh : BitVec 5) (ty : ShiftType) (rm : Reg) :
    Statement (.cmpRsi c rn sh ty rm) := of_arm fun h => encDpRsi_top h
theorem cmpRsr (c : Cond) (rn : Reg) (rs : Reg) (ty : ShiftType) (rm : Reg) :
    Statement (.cmpRsr c rn rs ty rm) := of_arm fun h => encDpRsr_top h
theorem cmnImm (c : Cond) (rn : Reg) (rot : BitVec 4) (imm8 : BitVec 8) :
    Statement (.cmnImm c rn rot imm8) := of_arm fun h => encDpImm_top h
theorem cmnRsi (c : Cond) (rn : Reg) (sh : BitVec 5) (ty : ShiftType) (rm : Reg) :
    Statement (.cmnRsi c rn sh ty rm) := of_arm fun h => encDpRsi_top h
theorem cmnRsr (c : Cond) (rn : Reg) (rs : Reg) (ty : ShiftType) (rm : Reg) :
    Statement (.cmnRsr c rn rs ty rm) := of_arm fun h => encDpRsr_top h
theorem orrImm (c : Cond) (sf : Bool) (rn : Reg) (rd : Reg) (rot : BitVec 4) (imm8 : BitVec 8) :
    Statement (.orrImm c sf rn rd rot imm8) := of_arm fun h => encDpImm_top h
theorem orrRsi (c : Cond) (sf : Bool) (rn : Reg) (rd : Reg) (sh : BitVec 5) (ty : ShiftType) (rm : Reg) :
    Statement (.orrRsi c sf rn rd sh ty rm) := of_arm fun h => encDpRsi_top h
theorem orrRsr (c : Cond) (sf : Bool) (rn : Reg) (rd : Reg) (rs : Reg) (ty : ShiftType) (rm : Reg) :
    Statement (.orrRsr c sf rn rd rs ty rm) := of_arm fun h => encDpRsr_top h
theorem movImm (c : Cond) (sf : Bool) (rd : Reg) (rot : BitVec 4) (imm8 : BitVec 8) :
    Statement (.movImm c sf rd rot imm8) := of_arm fun h => encDpImm_top h
theorem movRsi (c : Cond) (sf : Bool) (rd : Reg) (sh : BitVec 5) (ty : ShiftType) (rm : Reg) :
    Statement (.movRsi c sf rd sh ty rm) := of_arm fun h => encDpRsi_top h
theorem movRsr (c : Cond) (sf : Bool) (rd : Reg) (rs : Reg) (ty : ShiftType) (rm : Reg) :
    Statement (.movRsr c sf rd rs ty rm) := of_arm fun h => encDpRsr_top h
theorem bicImm (c : Cond) (sf : Bool) (rn : Reg) (rd : Reg) (rot : BitVec 4) (imm8 : BitVec 8) :
    Statement (.bicImm c sf rn rd rot imm8) := of_arm fun h => encDpImm_top h
theorem bicRsi (c : Cond) (sf : Bool) (rn : Reg) (rd : Reg) (sh : BitVec 5) (ty : ShiftType) (rm : Reg) :
    Statement (.bicRsi c sf rn rd sh ty rm) := of_arm fun h => encDpRsi_top h
theorem bicRsr (c : Cond) (sf : Bool) (rn : Reg) (rd : Reg) (rs : Reg) (ty : ShiftType) (rm : Reg) :
    Statement (.bicRsr c sf rn rd rs ty rm) := of_arm fun h => encDpRsr_top h
theorem mvnImm (c : Cond) (sf : Bool) (rd : Reg) (rot : BitVec 4) (imm8 : BitVec 8) :
    Statement (.mvnImm c sf rd rot imm8) := of_arm fun h => encDpImm_top h
theorem mvnRsi (c : Cond) (sf : Bool) (rd : Reg) (sh : BitVec 5) (ty : ShiftType) (rm : Reg) :
    Statement (.mvnRsi c sf rd sh ty rm) := of_arm fun h => encDpRsi_top h
theorem mvnRsr (c : Cond) (sf : Bool) (rd : Reg) (rs : Reg) (ty : ShiftType) (rm : Reg) :
    Statement (.mvnRsr c sf rd rs ty rm) := of_arm fun h => encDpRsr_top h
theorem mrs (c : Cond) (r : Bool) (rd : Reg) : Statement (.mrs c r rd) := of_arm fun h => encMisc_top h
theorem msrRegCpsr (c : Cond) (mask : BitVec 4) (rm : Reg) :
    Statement (.msrRegCpsr c mask rm) := of_arm fun h => encMisc_top h
theorem msrRegSpsr (c : Cond) (mask : BitVec 4) (rm : Reg) :
    Statement (.msrRegSpsr c mask rm) := of_arm fun h => encMisc_top h
theorem msrImm (c : Cond) (r : Bool) (mask : BitVec 4) (rot : BitVec 4) (imm8 : BitVec 8) :
    Statement (.msrImm c r mask rot imm8) := of_arm fun h => by
  cases h; simp only [top, Nat.reduceLeDiff, Nat.reduceSub, BitVec.extractLsb'_eq_self, Instr.condition]
theorem bx (c : Cond) (rm : Reg) : Statement (.bx c rm) := of_arm fun h => encMisc_top h
theorem blxReg (c : Cond) (rm : Reg) : Statement (.blxReg c rm) := of_arm fun h => encMisc_top h
theorem clz (c : Cond) (rd : Reg) (rm : Reg) : Statement (.clz c rd rm) := of_arm fun h => encMisc_top h
theorem qadd (c : Cond) (rn : Reg) (rd : Reg) (rm : Reg) : Statement (.qadd c rn rd rm) := of_arm fun h => encMisc_top h
theorem qsub (c : Cond) (rn : Reg) (rd : Reg) (rm : Reg) : Statement (.qsub c rn rd rm) := of_arm fun h => encMisc_top h
theorem qdadd (c : Cond) (rn : Reg) (rd : Reg) (rm : Reg) :
    Statement (.qdadd c rn rd rm) := of_arm fun h => encMisc_top h
theorem qdsub (c : Cond) (rn : Reg) (rd : Reg) (rm : Reg) :
    Statement (.qdsub c rn rd rm) := of_arm fun h => encMisc_top h
theorem bkpt (c : Cond) (imm12 : BitVec 12) (imm4 : BitVec 4) : Statement (.bkpt c imm12 imm4) := of_arm fun h => by
  cases h; simp only [top, Nat.reduceLeDiff, Nat.reduceSub, BitVec.extractLsb'_eq_self, Instr.condition]
theorem smlaXy (c : Cond) (rd : Reg) (rn : Reg) (rs : Reg) (y : Bool) (x : Bool) (rm : Reg) :
    Statement (.smlaXy c rd rn rs y x rm) := of_arm fun h => encMisc_top h
theorem smlawY (c : Cond) (rd : Reg) (rn : Reg) (rs : Reg) (y : Bool) (rm : Reg) :
    Statement (.smlawY c rd rn rs y rm) := of_arm fun h => encMisc_top h
theorem smulwY (c : Cond) (rd : Reg) (rs : Reg) (y : Bool) (rm : Reg) :
    Statement (.smulwY c rd rs y rm) := of_arm fun h => encMisc_top h
theorem smlalXy (c : Cond) (rdHi : Reg) (rdLo : Reg) (rs : Reg) (y : Bool) (x : Bool) (rm : Reg) :
    Statement (.smlalXy c rdHi rdLo rs y x rm) := of_arm fun h => encMisc_top h
theorem smulXy (c : Cond) (rd : Reg) (rs : Reg) (y : Bool) (x : Bool) (rm : Reg) :
    Statement (.smulXy c rd rs y x rm) := of_arm fun h => encMisc_top h
theorem mul (c : Cond) (sf : Bool) (rd : Reg) (rs : Reg) (rm : Reg) :
    Statement (.mul c sf rd rs rm) := of_arm fun h => encMul_top h
theorem mla (c : Cond) (sf : Bool) (rd : Reg) (rn : Reg) (rs : Reg) (rm : Reg) :
    Statement (.mla c sf rd rn rs rm) := of_arm fun h => encMul_top h
theorem umull (c : Cond) (sf : Bool) (rdHi : Reg) (rdLo : Reg) (rs : Reg) (rm : Reg) :
    Statement (.umull c sf rdHi rdLo rs rm) := of_arm fun h => encMul_top h
theorem umlal (c : Cond) (sf : Bool) (rdHi : Reg) (rdLo : Reg) (rs : Reg) (rm : Reg) :
    Statement (.umlal c sf rdHi rdLo rs rm) := of_arm fun h => encMul_top h
theorem smull (c : Cond) (sf : Bool) (rdHi : Reg) (rdLo : Reg) (rs : Reg) (rm : Reg) :
    Statement (.smull c sf rdHi rdLo rs rm) := of_arm fun h => encMul_top h
theorem smlal (c : Cond) (sf : Bool) (rdHi : Reg) (rdLo : Reg) (rs : Reg) (rm : Reg) :
    Statement (.smlal c sf rdHi rdLo rs rm) := of_arm fun h => encMul_top h
theorem swp (c : Cond) (rn : Reg) (rd : Reg) (rm : Reg) : Statement (.swp c rn rd rm) := of_arm fun h => encMul_top h
theorem swpb (c : Cond) (rn : Reg) (rd : Reg) (rm : Reg) : Statement (.swpb c rn rd rm) := of_arm fun h => encMul_top h
theorem ldrh (c : Cond) (p : Bool) (u : Bool) (w : Bool) (rn : Reg) (rd : Reg) (off : HalfOffset) :
    Statement (.ldrh c p u w rn rd off) := of_arm fun h => encHalf_top h
theorem strh (c : Cond) (p : Bool) (u : Bool) (w : Bool) (rn : Reg) (rd : Reg) (off : HalfOffset) :
    Statement (.strh c p u w rn rd off) := of_arm fun h => encHalf_top h
theorem ldrsb (c : Cond) (p : Bool) (u : Bool) (w : Bool) (rn : Reg) (rd : Reg) (off : HalfOffset) :
    Statement (.ldrsb c p u w rn rd off) := of_arm fun h => encHalf_top h
theorem ldrsh (c : Cond) (p : Bool) (u : Bool) (w : Bool) (rn : Reg) (rd : Reg) (off : HalfOffset) :
    Statement (.ldrsh c p u w rn rd off) := of_arm fun h => encHalf_top h
theorem ldrd (c : Cond) (p : Bool) (u : Bool) (w : Bool) (rn : Reg) (rd : Reg) (off : HalfOffset) :
    Statement (.ldrd c p u w rn rd off) := of_arm fun h => encHalf_top h
theorem strd (c : Cond) (p : Bool) (u : Bool) (w : Bool) (rn : Reg) (rd : Reg) (off : HalfOffset) :
    Statement (.strd c p u w rn rd off) := of_arm fun h => encHalf_top h
theorem ldrImm (c : Cond) (p : Bool) (u : Bool) (w : Bool) (rn : Reg) (rd : Reg) (off12 : BitVec 12) :
    Statement (.ldrImm c p u w rn rd off12) := of_arm fun h => encTransferImm_top h
theorem strImm (c : Cond) (p : Bool) (u : Bool) (w : Bool) (rn : Reg) (rd : Reg) (off12 : BitVec 12) :
    Statement (.strImm c p u w rn rd off12) := of_arm fun h => encTransferImm_top h
theorem ldrbImm (c : Cond) (p : Bool) (u : Bool) (w : Bool) (rn : Reg) (rd : Reg) (off12 : BitVec 12) :
    Statement (.ldrbImm c p u w rn rd off12) := of_arm fun h => encTransferImm_top h
theorem strbImm (c : Cond) (p : Bool) (u : Bool) (w : Bool) (rn : Reg) (rd : Reg) (off12 : BitVec 12) :
    Statement (.strbImm c p u w rn rd off12) := of_arm fun h => encTransferImm_top h
theorem ldrtImm (c : Cond) (u : Bool) (rn : Reg) (rd : Reg) (off12 : BitVec 12) :
    Statement (.ldrtImm c u rn rd off12) := of_arm fun h => encTransferImm_top h
theorem strtImm (c : Cond) (u : Bool) (rn : Reg) (rd : Reg) (off12 : BitVec 12) :
    Statement (.strtImm c u rn rd off12) := of_arm fun h => encTransferImm_top h
theorem ldrbtImm (c : Cond) (u : Bool) (rn : Reg) (rd : Reg) (off12 : BitVec 12) :
    Statement (.ldrbtImm c u rn rd off12) := of_arm fun h => encTransferImm_top h
theorem strbtImm (c : Cond) (u : Bool) (rn : Reg) (rd : Reg) (off12 : BitVec 12) :
    Statement (.strbtImm c u rn rd off12) := of_arm fun h => encTransferImm_top h
theorem ldrReg (c : Cond) (p : Bool) (u : Bool) (w : Bool) (rn : Reg) (rd : Reg) (sh : BitVec 5) (ty : ShiftType) (rm : Reg) :
    Statement (.ldrReg c p u w rn rd sh ty rm) := of_arm fun h => encTransferReg_top h
theorem strReg (c : Cond) (p : Bool) (u : Bool) (w : Bool) (rn : Reg) (rd : Reg) (sh : BitVec 5) (ty : ShiftType) (rm : Reg) :
    Statement (.strReg c p u w rn rd sh ty rm) := of_arm fun h => encTransferReg_top h
theorem ldrbReg (c : Cond) (p : Bool) (u : Bool) (w : Bool) (rn : Reg) (rd : Reg) (sh : BitVec 5) (ty : ShiftType) (rm : Reg) :
    Statement (.ldrbReg c p u w rn rd sh ty rm) := of_arm fun h => encTransferReg_top h
theorem strbReg (c : Cond) (p : Bool) (u : Bool) (w : Bool) (rn : Reg) (rd : Reg) (sh : BitVec 5) (ty : ShiftType) (rm : Reg) :
    Statement (.strbReg c p u w rn rd sh ty rm) := of_arm fun h => encTransferReg_top h
theorem ldrtReg (c : Cond) (u : Bool) (rn : Reg) (rd : Reg) (sh : BitVec 5) (ty : ShiftType) (rm : Reg) :
    Statement (.ldrtReg c u rn rd sh ty rm) := of_arm fun h => encTransferReg_top h
theorem strtReg (c : Cond) (u : Bool) (rn : Reg) (rd : Reg) (sh : BitVec 5) (ty : ShiftType) (rm : Reg) :
    Statement (.strtReg c u rn rd sh ty rm) := of_arm fun h => encTransferReg_top h
theorem ldrbtReg (c : Cond) (u : Bool) (rn : Reg) (rd : Reg) (sh : BitVec 5) (ty : ShiftType) (rm : Reg) :
    Statement (.ldrbtReg c u rn rd sh ty rm) := of_arm fun h => encTransferReg_top h
theorem strbtReg (c : Cond) (u : Bool) (rn : Reg) (rd : Reg) (sh : BitVec 5) (ty : ShiftType) (rm : Reg) :
    Statement (.strbtReg c u rn rd sh ty rm) := of_arm fun h => encTransferReg_top h
theorem ldm (c : Cond) (p : Bool) (u : Bool) (w : Bool) (rn : Reg) (list : BitVec 16) :
    Statement (.ldm c p u w rn list) := of_arm fun h => encBlock_top h
theorem ldmS (c : Cond) (p : Bool) (u : Bool) (w : Bool) (rn : Reg) (list : BitVec 16) :
    Statement (.ldmS c p u w rn list) := of_arm fun h => encBlock_top h
theorem stm (c : Cond) (p : Bool) (u : Bool) (w : Bool) (rn : Reg) (list : BitVec 16) :
    Statement (.stm c p u w rn list) := of_arm fun h => encBlock_top h
theorem stmS (c : Cond) (p : Bool) (u : Bool) (w : Bool) (rn : Reg) (list : BitVec 16) :
    Statement (.stmS c p u w rn list) := of_arm fun h => encBlock_top h
theorem b (c : Cond) (off24 : BitVec 24) : Statement (.b c off24) := of_arm fun h => by
  cases h; simp only [top, Nat.reduceLeDiff, Nat.reduceSub, BitVec.extractLsb'_eq_self, Instr.condition]
theorem bl (c : Cond) (off24 : BitVec 24) : Statement (.bl c off24) := of_arm fun h => by
  cases h; simp only [top, Nat.reduceLeDiff, Nat.reduceSub, BitVec.extractLsb'_eq_self, Instr.condition]
theorem blxImm (h : Bool) (off24 : BitVec 24) : Statement (.blxImm h off24) := of_arm fun h => by
  cases h; simp only [top, Nat.reduceLeDiff, Nat.reduceSub, Instr.condition]; decide
theorem pld (i : Bool) (u : Bool) (rn : Reg) (off12 : BitVec 12) : Statement (.pld i u rn off12) := of_arm fun h => by
  cases h; simp only [top, Nat.reduceLeDiff, Nat.reduceSub, Instr.condition]; decide
theorem swi (c : Cond) (comment24 : BitVec 24) : Statement (.swi c comment24) := of_arm fun h => by
  cases h; simp only [top, Nat.reduceLeDiff, Nat.reduceSub, BitVec.extractLsb'_eq_self, Instr.condition]
theorem mcr (c : Cond) (opc1 : BitVec 3) (crn : Reg) (rd : Reg) (cp : Reg) (opc2 : BitVec 3) (crm : Reg) :
    Statement (.mcr c opc1 crn rd cp opc2 crm) := of_arm fun h => encCoprocessorMove_top h
theorem mrc (c : Cond) (opc1 : BitVec 3) (crn : Reg) (rd : Reg) (cp : Reg) (opc2 : BitVec 3) (crm : Reg) :
    Statement (.mrc c opc1 crn rd cp opc2 crm) := of_arm fun h => encCoprocessorMove_top h
theorem cdp (c : Cond) (opc1 : BitVec 4) (crn : Reg) (crd : Reg) (cp : Reg) (opc2 : BitVec 3) (crm : Reg) :
    Statement (.cdp c opc1 crn crd cp opc2 crm) := of_arm fun h => by
  cases h; simp only [top, Nat.reduceLeDiff, Nat.reduceSub, BitVec.extractLsb'_eq_self, Instr.condition]
theorem mcrrMrrc (c : Cond) (l : Bool) (rn : Reg) (rd : Reg) (cp : Reg) (opc : BitVec 4) (crm : Reg) :
    Statement (.mcrrMrrc c l rn rd cp opc crm) := of_arm fun h => by
  cases h; simp only [top, Nat.reduceLeDiff, Nat.reduceSub, BitVec.extractLsb'_eq_self, Instr.condition]
theorem ldcStc (c : Cond) (p : Bool) (u : Bool) (n : Bool) (w : Bool) (l : Bool) (rn : Reg) (crd : Reg) (cp : Reg) (off8 : BitVec 8) :
    Statement (.ldcStc c p u n w l rn crd cp off8) := of_arm fun h => by
  cases h; simp only [top, Nat.reduceLeDiff, Nat.reduceSub, BitVec.extractLsb'_eq_self, Instr.condition]
theorem tLslImm (off5 : BitVec 5) (rs : LowReg) (rd : LowReg) : Statement (.tLslImm off5 rs rd) := of_thumb rfl
theorem tLsrImm (off5 : BitVec 5) (rs : LowReg) (rd : LowReg) : Statement (.tLsrImm off5 rs rd) := of_thumb rfl
theorem tAsrImm (off5 : BitVec 5) (rs : LowReg) (rd : LowReg) : Statement (.tAsrImm off5 rs rd) := of_thumb rfl
theorem tAddReg (rn : LowReg) (rs : LowReg) (rd : LowReg) : Statement (.tAddReg rn rs rd) := of_thumb rfl
theorem tSubReg (rn : LowReg) (rs : LowReg) (rd : LowReg) : Statement (.tSubReg rn rs rd) := of_thumb rfl
theorem tAddImm3 (off3 : BitVec 3) (rs : LowReg) (rd : LowReg) : Statement (.tAddImm3 off3 rs rd) := of_thumb rfl
theorem tSubImm3 (off3 : BitVec 3) (rs : LowReg) (rd : LowReg) : Statement (.tSubImm3 off3 rs rd) := of_thumb rfl
theorem tMovImm (rd : LowReg) (off8 : BitVec 8) : Statement (.tMovImm rd off8) := of_thumb rfl
theorem tCmpImm (rd : LowReg) (off8 : BitVec 8) : Statement (.tCmpImm rd off8) := of_thumb rfl
theorem tAddImm8 (rd : LowReg) (off8 : BitVec 8) : Statement (.tAddImm8 rd off8) := of_thumb rfl
theorem tSubImm8 (rd : LowReg) (off8 : BitVec 8) : Statement (.tSubImm8 rd off8) := of_thumb rfl
theorem tAnd (rs : LowReg) (rd : LowReg) : Statement (.tAnd rs rd) := of_thumb rfl
theorem tEor (rs : LowReg) (rd : LowReg) : Statement (.tEor rs rd) := of_thumb rfl
theorem tLslReg (rs : LowReg) (rd : LowReg) : Statement (.tLslReg rs rd) := of_thumb rfl
theorem tLsrReg (rs : LowReg) (rd : LowReg) : Statement (.tLsrReg rs rd) := of_thumb rfl
theorem tAsrReg (rs : LowReg) (rd : LowReg) : Statement (.tAsrReg rs rd) := of_thumb rfl
theorem tAdc (rs : LowReg) (rd : LowReg) : Statement (.tAdc rs rd) := of_thumb rfl
theorem tSbc (rs : LowReg) (rd : LowReg) : Statement (.tSbc rs rd) := of_thumb rfl
theorem tRor (rs : LowReg) (rd : LowReg) : Statement (.tRor rs rd) := of_thumb rfl
theorem tTst (rs : LowReg) (rd : LowReg) : Statement (.tTst rs rd) := of_thumb rfl
theorem tNeg (rs : LowReg) (rd : LowReg) : Statement (.tNeg rs rd) := of_thumb rfl
theorem tCmpReg (rs : LowReg) (rd : LowReg) : Statement (.tCmpReg rs rd) := of_thumb rfl
theorem tCmn (rs : LowReg) (rd : LowReg) : Statement (.tCmn rs rd) := of_thumb rfl
theorem tOrr (rs : LowReg) (rd : LowReg) : Statement (.tOrr rs rd) := of_thumb rfl
theorem tMul (rs : LowReg) (rd : LowReg) : Statement (.tMul rs rd) := of_thumb rfl
theorem tBic (rs : LowReg) (rd : LowReg) : Statement (.tBic rs rd) := of_thumb rfl
theorem tMvn (rs : LowReg) (rd : LowReg) : Statement (.tMvn rs rd) := of_thumb rfl
theorem tAddHi (rs : Reg) (rd : Reg) : Statement (.tAddHi rs rd) := of_thumb rfl
theorem tCmpHi (rs : Reg) (rd : Reg) : Statement (.tCmpHi rs rd) := of_thumb rfl
theorem tMovHi (rs : Reg) (rd : Reg) : Statement (.tMovHi rs rd) := of_thumb rfl
theorem tBx (rs : Reg) : Statement (.tBx rs) := of_thumb rfl
theorem tBlxReg (rs : Reg) : Statement (.tBlxReg rs) := of_thumb rfl
theorem tLdrPc (rd : LowReg) (word8 : BitVec 8) : Statement (.tLdrPc rd word8) := of_thumb rfl
theorem tStrReg (ro : LowReg) (rb : LowReg) (rd : LowReg) : Statement (.tStrReg ro rb rd) := of_thumb rfl
theorem tStrbReg (ro : LowReg) (rb : LowReg) (rd : LowReg) : Statement (.tStrbReg ro rb rd) := of_thumb rfl
theorem tLdrReg (ro : LowReg) (rb : LowReg) (rd : LowReg) : Statement (.tLdrReg ro rb rd) := of_thumb rfl
theorem tLdrbReg (ro : LowReg) (rb : LowReg) (rd : LowReg) : Statement (.tLdrbReg ro rb rd) := of_thumb rfl
theorem tStrhReg (ro : LowReg) (rb : LowReg) (rd : LowReg) : Statement (.tStrhReg ro rb rd) := of_thumb rfl
theorem tLdrhReg (ro : LowReg) (rb : LowReg) (rd : LowReg) : Statement (.tLdrhReg ro rb rd) := of_thumb rfl
theorem tLdsbReg (ro : LowReg) (rb : LowReg) (rd : LowReg) : Statement (.tLdsbReg ro rb rd) := of_thumb rfl
theorem tLdshReg (ro : LowReg) (rb : LowReg) (rd : LowReg) : Statement (.tLdshReg ro rb rd) := of_thumb rfl
theorem tStrImm (off5 : BitVec 5) (rb : LowReg) (rd : LowReg) : Statement (.tStrImm off5 rb rd) := of_thumb rfl
theorem tLdrImm (off5 : BitVec 5) (rb : LowReg) (rd : LowReg) : Statement (.tLdrImm off5 rb rd) := of_thumb rfl
theorem tStrbImm (off5 : BitVec 5) (rb : LowReg) (rd : LowReg) : Statement (.tStrbImm off5 rb rd) := of_thumb rfl
theorem tLdrbImm (off5 : BitVec 5) (rb : LowReg) (rd : LowReg) : Statement (.tLdrbImm off5 rb rd) := of_thumb rfl
theorem tStrhImm (off5 : BitVec 5) (rb : LowReg) (rd : LowReg) : Statement (.tStrhImm off5 rb rd) := of_thumb rfl
theorem tLdrhImm (off5 : BitVec 5) (rb : LowReg) (rd : LowReg) : Statement (.tLdrhImm off5 rb rd) := of_thumb rfl
theorem tStrSp (rd : LowReg) (word8 : BitVec 8) : Statement (.tStrSp rd word8) := of_thumb rfl
theorem tLdrSp (rd : LowReg) (word8 : BitVec 8) : Statement (.tLdrSp rd word8) := of_thumb rfl
theorem tAddPc (rd : LowReg) (word8 : BitVec 8) : Statement (.tAddPc rd word8) := of_thumb rfl
theorem tAddSp (rd : LowReg) (word8 : BitVec 8) : Statement (.tAddSp rd word8) := of_thumb rfl
theorem tAddSpImm (minus : Bool) (sword7 : BitVec 7) : Statement (.tAddSpImm minus sword7) := of_thumb rfl
theorem tPush (r : Bool) (rlist : BitVec 8) : Statement (.tPush r rlist) := of_thumb rfl
theorem tPop (r : Bool) (rlist : BitVec 8) : Statement (.tPop r rlist) := of_thumb rfl
theorem tBkpt (imm8 : BitVec 8) : Statement (.tBkpt imm8) := of_thumb rfl
theorem tStmia (rb : LowReg) (rlist : BitVec 8) : Statement (.tStmia rb rlist) := of_thumb rfl
theorem tLdmia (rb : LowReg) (rlist : BitVec 8) : Statement (.tLdmia rb rlist) := of_thumb rfl
theorem tBcond (c : Cond) (soff8 : BitVec 8) : Statement (.tBcond c soff8) := of_thumb rfl
theorem tSwi (value8 : BitVec 8) : Statement (.tSwi value8) := of_thumb rfl
theorem tB (off11 : BitVec 11) : Statement (.tB off11) := of_thumb rfl
theorem tBlxSuffix (off11 : BitVec 11) : Statement (.tBlxSuffix off11) := of_thumb rfl
theorem tBlPrefix (off11 : BitVec 11) : Statement (.tBlPrefix off11) := of_thumb rfl
theorem tBlSuffix (off11 : BitVec 11) : Statement (.tBlSuffix off11) := of_thumb rfl

end Sys2Proof.Laws.CodeShape
end

