-- ==== Sys2Proof/Tests/Slice0.lean ====
section
/-! SUPPORT. The model's own tests: ill-formed terms refused, words written out from the formats decoded, the vectors of
95_test_vectors.md run one instruction each, and for every obligation with hypotheses a witness that meets them. -/

namespace Sys2Proof.Tests

open Sys2Proof Sys2Proof.Machine

/-! ### Small states -/

/-- Processor p at pc with a status word, some registers of its mode and some words of memory, every address of both spaces
backed by the cell of the same number. -/
def small (p : Proc) (cpsr pc : Word) (regs : List (Reg × Word)) (words : List (Nat × Word)) : State :=
  let q : ProcState := regs.foldl (fun q x => q.setGpr x.1 x.2)
    { ProcState.reset p with cpsr := Psr.ofWord cpsr, pc := pc }
  { State.reset with
    cpus := State.reset.cpus.put p q
    maps := ⟨Region.everywhere 0, Region.everywhere 0⟩
    mem := words.foldl (fun m x => m.writeCells [x.1, x.1 + 1, x.1 + 2, x.1 + 3] (bytesOf x.2 4)) []
    cur := p }

/-- Something holds of the next state. -/
def after (r : Result) (f : State → Bool) : Bool :=
  match r with
  | .next t => f t
  | _ => false

/-- Decode an ARM word and run it. -/
def arm (w : Word) (s : State) (f : State → Bool) : Bool :=
  match decodeArm s.cur w with
  | .ok i => after (exec i s) f
  | .error _ => false

/-- Decode a Thumb halfword and run it. -/
def thumb (h : Half) (s : State) (f : State → Bool) : Bool :=
  match decodeThumb s.cur h with
  | .ok i => after (exec i s) f
  | .error _ => false

/-- The registers of the mode hold these values. -/
def gives (t : State) (regs : List (Reg × Word)) : Bool := regs.all fun x => t.cpu.gpr x.1 == x.2

/-- N, Z, C and V. -/
def nzcv (t : State) : BitVec 4 := t.cpu.cpsr.toWord.extractLsb' 28 4

/-- A word of memory. -/
def wordAt (t : State) (cell : Nat) : Word := t.mem.readCells [cell, cell + 1, cell + 2, cell + 3]

/-! ### Ill-formed terms, one for each check of WellFormed -/

theorem test_wf_halfword_index_form : (Instr.ldrh .al false true true 1#4 0#4 (.imm 0#8)).wf = false := by decide

theorem test_wf_strd_index_form : (Instr.strd .al false false true 1#4 0#4 (.reg 2#4)).wf = false := by decide

theorem test_wf_immediate_index_form : (Instr.ldrbImm .al false true true 1#4 0#4 4#12).wf = false := by decide

theorem test_wf_register_index_form : (Instr.strReg .al false true true 1#4 0#4 0#5 .lsl 2#4).wf = false := by decide

theorem test_wf_ldc_is_not_mcrr :
    (Instr.ldcStc .al false false true false true 0#4 0#4 15#4 0#8).wf = false := by decide

theorem test_wf_thumb_branch_always : (Instr.tBcond .al 0#8).wf = false := by decide

theorem test_wf_blx_suffix_odd : (Instr.tBlxSuffix 1#11).wf = false := by decide

/-! ### Words written out, field by field, from the formats of R96 to R112 -/

theorem test_decode_data_processing :
    decodeArm .B (0b1110#4 ++ 0b000#3 ++ 0b0100#4 ++ 0b1#1 ++ 1#4 ++ 2#4 ++ 3#4 ++ 0b0#1 ++ 0b10#2 ++ 0b1#1 ++ 4#4)
      = .ok (.addRsr .al true 1#4 2#4 3#4 .asr 4#4) := by decide

theorem test_decode_multiply :
    decodeArm .B (0b0001#4 ++ 0b000000#6 ++ 0b11#2 ++ 1#4 ++ 2#4 ++ 3#4 ++ 0b1001#4 ++ 4#4)
      = .ok (.mla .ne true 1#4 2#4 3#4 4#4) := by decide

theorem test_decode_long_multiply :
    decodeArm .B (0b1110#4 ++ 0b00001#5 ++ 0b100#3 ++ 1#4 ++ 2#4 ++ 3#4 ++ 0b1001#4 ++ 4#4)
      = .ok (.smull .al false 1#4 2#4 3#4 4#4) := by decide

theorem test_decode_signed_multiply :
    decodeArm .A (0b1110#4 ++ 0b00010#5 ++ 0b01#2 ++ 0b0#1 ++ 1#4 ++ 0#4 ++ 3#4 ++ 0b1#1 ++ 0b1#1 ++ 0b1#1 ++ 0b0#1 ++ 4#4)
      = .ok (.smulwY .al 1#4 3#4 true 4#4) := by decide

theorem test_decode_halfword_transfer :
    decodeArm .B (0b1110#4 ++ 0b000#3 ++ 0b10110#5 ++ 1#4 ++ 2#4 ++ 0xA#4 ++ 0b1011#4 ++ 0x5#4)
      = .ok (.strh .al true false true 1#4 2#4 (.imm 0xA5#8)) := by decide

theorem test_decode_single_transfer :
    decodeArm .B (0b1110#4 ++ 0b011#3 ++ 0b00110#5 ++ 1#4 ++ 2#4 ++ 31#5 ++ 0b11#2 ++ 0b0#1 ++ 4#4)
      = .ok (.strbtReg .al false 1#4 2#4 31#5 .ror 4#4) := by decide

theorem test_decode_block_transfer :
    decodeArm .B (0b1110#4 ++ 0b100#3 ++ 0b01111#5 ++ 13#4 ++ 0x8001#16) 
      = .ok (.ldmS .al false true true 13#4 0x8001#16) := by decide

theorem test_decode_status_access :
    decodeArm .B (0b1110#4 ++ 0b00110#5 ++ 0b1#1 ++ 0b10#2 ++ 0b1001#4 ++ 0xF#4 ++ 2#4 ++ 0x80#8)
      = .ok (.msrImm .al true 0b1001#4 2#4 0x80#8) := by decide

theorem test_decode_coprocessor_move :
    decodeArm .A (0b1110#4 ++ 0b1110#4 ++ 5#3 ++ 0b1#1 ++ 1#4 ++ 2#4 ++ 15#4 ++ 6#3 ++ 0b1#1 ++ 3#4)
      = .ok (.mrc .al 5#3 1#4 2#4 15#4 6#3 3#4) := by decide

theorem test_decode_unconditional :
    decodeArm .A (0b1111#4 ++ 0b0111#4 ++ 0b1101#4 ++ 1#4 ++ 0xF#4 ++ 8#12) = .ok (.pld true true 1#4 8#12) := by decide

theorem test_decode_thumb_shift : decodeThumb .B (0b00010#5 ++ 31#5 ++ 1#3 ++ 2#3) = .ok (.tAsrImm 31#5 1#3 2#3) := by
  decide

theorem test_decode_thumb_high :
    decodeThumb .B (0b010001#6 ++ 0b10#2 ++ 0b1#1 ++ 0b0#1 ++ 1#3 ++ 2#3) = .ok (.tMovHi 1#4 10#4) := by decide

theorem test_decode_thumb_stack : decodeThumb .B (0b10110000#8 ++ 0b1#1 ++ 5#7) = .ok (.tAddSpImm true 5#7) := by decide

theorem test_decode_thumb_transfer :
    decodeThumb .B (0b0101#4 ++ 0b011#3 ++ 1#3 ++ 2#3 ++ 3#3) = .ok (.tLdsbReg 1#3 2#3 3#3) := by decide

theorem test_decode_thumb_block : decodeThumb .B (0b11001#5 ++ 4#3 ++ 0x81#8) = .ok (.tLdmia 4#3 0x81#8) := by decide

theorem test_decode_thumb_branch : decodeThumb .B (0b1101#4 ++ 0b1101#4 ++ 0xFE#8) = .ok (.tBcond .le 0xFE#8) := by decide

/-! ### Words that are no instruction (R125) -/

theorem test_decode_blx_on_B : decodeArm .B 0xFA000000#32 = .error .onlyOnA := by decide

theorem test_decode_register_offset_bit_4 : decodeArm .A 0xE7000010#32 = .error .registerOffsetBit4 := by decide

theorem test_decode_thumb_cond_al : decodeThumb .A 0xDE00#16 = .error .thumbCondAl := by decide

/-! ### The decoder and the fetch as the host asks for them -/

theorem test_table_word : decodeTableWord 32 0xE0500001 = some (.subRsi .al true 0#4 0#4 0#5 .lsl 1#4) := by decide

theorem test_table_halfword : decodeTableWord 16 0x2005 = some (.tMovImm 0#3 5#8) := by decide

theorem test_fetch_word :
    after (step (State.reset.withFetchWord 32 0xE3A00005))
      (fun t => gives t [(0#4, 5#32)]) = true := by decide

theorem test_fetch_halfword :
    after (step (State.reset.withFetchWord 16 0x2005))
      (fun t => gives t [(0#4, 5#32)]) = true := by decide

/-! ### Data processing (95_test_vectors.md, sections 1.1 to 1.4, 2.2 and 2.3). -/

theorem test_subs_no_borrow :
    arm 0xE0500001#32 (small .B 0x1f#32 0x1000#32 [(0#4, 5#32), (1#4, 3#32)] [])
      (fun t => gives t [(0#4, 2#32)] && (nzcv t == 0b10#4) && (t.cpu.pc == 0x1004#32)) = true := by decide

theorem test_adds_signed_overflow :
    arm 0xE0900001#32 (small .B 0x1f#32 0x1000#32 [(0#4, 0x7fffffff#32), (1#4, 1#32)] [])
      (fun t => gives t [(0#4, 0x80000000#32)] && (nzcv t == 0b1001#4)) = true := by decide

theorem test_mvn_rotated_immediate :
    arm 0xE3E00102#32 (small .B 0x1f#32 0x1000#32 [] [])
      (fun t => gives t [(0#4, 0x7fffffff#32)]) = true := by decide

theorem test_lsr_by_32 :
    arm 0xE1B00231#32 (small .B 0x1f#32 0x1000#32 [(1#4, 0x80000000#32), (2#4, 0x20#32)] [])
      (fun t => gives t [(0#4, 0#32)] && (nzcv t == 0b110#4) && (t.cpu.ts == 1)) = true := by decide

theorem test_asr_by_255 :
    arm 0xE1B00251#32 (small .B 0x1f#32 0x1000#32 [(1#4, 0x80000000#32), (2#4, 0xff#32)] [])
      (fun t => gives t [(0#4, 0xffffffff#32)] && (nzcv t == 0b1010#4)) = true := by decide

theorem test_lsl_by_33 :
    arm 0xE1B00211#32 (small .B 0x1f#32 0x1000#32 [(1#4, 1#32), (2#4, 0x21#32)] [])
      (fun t => gives t [(0#4, 0#32)] && (nzcv t == 0b100#4)) = true := by decide

theorem test_ror_by_33 :
    arm 0xE1B00271#32 (small .B 0x1f#32 0x1000#32 [(1#4, 0x80000001#32), (2#4, 0x21#32)] [])
      (fun t => gives t [(0#4, 0xc0000000#32)] && (nzcv t == 0b1010#4)) = true := by decide

theorem test_cmn_carry :
    arm 0xE1700001#32 (small .B 0x1f#32 0x1000#32 [(0#4, 0x80000000#32), (1#4, 0x80000000#32)] [])
      (fun t => (nzcv t == 0b111#4)) = true := by decide

theorem test_adc_carry_in :
    arm 0xE0B00001#32 (small .B 0x2000001f#32 0x1000#32 [(0#4, 0xffffffff#32), (1#4, 0xffffffff#32)] [])
      (fun t => gives t [(0#4, 0xffffffff#32)] && (nzcv t == 0b1010#4)) = true := by decide

theorem test_sbc_borrow_in :
    arm 0xE0D00001#32 (small .B 0x1f#32 0x1000#32 [(0#4, 0#32), (1#4, 0xffffffff#32)] [])
      (fun t => gives t [(0#4, 0#32)] && (nzcv t == 0b100#4)) = true := by decide

theorem test_rsc :
    arm 0xE0E02001#32 (small .B 0x2000001f#32 0x1000#32 [(0#4, 3#32), (1#4, 5#32)] [])
      (fun t => gives t [(2#4, 2#32)]) = true := by decide

theorem test_rsb_borrow :
    arm 0xE2710000#32 (small .B 0x1f#32 0x1000#32 [(1#4, 1#32)] [])
      (fun t => gives t [(0#4, 0xffffffff#32)] && (nzcv t == 0b1000#4)) = true := by decide

theorem test_mov_rotated_carry :
    arm 0xE3B004FF#32 (small .B 0x1f#32 0x1000#32 [] [])
      (fun t => gives t [(0#4, 0xff000000#32)] && (nzcv t == 0b1010#4)) = true := by decide

theorem test_tst_rotated_keeps_carry :
    arm 0xE31004FF#32 (small .B 0x1f#32 0x1000#32 [] [])
      (fun t => (nzcv t == 0b100#4)) = true := by decide

theorem test_teq_equal :
    arm 0xE1300001#32 (small .B 0x1f#32 0x1000#32 [(0#4, 7#32), (1#4, 7#32)] [])
      (fun t => (nzcv t == 0b100#4)) = true := by decide

theorem test_cmp_equal :
    arm 0xE3500005#32 (small .B 0x1f#32 0x1000#32 [(0#4, 5#32)] [])
      (fun t => (nzcv t == 0b110#4)) = true := by decide

theorem test_rrx :
    arm 0xE1B00061#32 (small .B 0x2000001f#32 0x1000#32 [(1#4, 3#32)] [])
      (fun t => gives t [(0#4, 0x80000001#32)] && (nzcv t == 0b1010#4)) = true := by decide

theorem test_and :
    arm 0xE0010002#32 (small .B 0x1f#32 0x1000#32 [(1#4, 0xf0f0f0f0#32), (2#4, 0xff00ff00#32)] [])
      (fun t => gives t [(0#4, 0xf000f000#32)]) = true := by decide

theorem test_eor :
    arm 0xE22100FF#32 (small .B 0x1f#32 0x1000#32 [(1#4, 0xf#32)] [])
      (fun t => gives t [(0#4, 0xf0#32)]) = true := by decide

theorem test_orr :
    arm 0xE1800201#32 (small .B 0x1f#32 0x1000#32 [(0#4, 1#32), (1#4, 1#32)] [])
      (fun t => gives t [(0#4, 0x11#32)]) = true := by decide

theorem test_bic :
    arm 0xE3C000FF#32 (small .B 0x1f#32 0x1000#32 [(0#4, 0x1234#32)] [])
      (fun t => gives t [(0#4, 0x1200#32)]) = true := by decide

theorem test_add_pc_register_shift :
    arm 0xE08F0110#32 (small .B 0x1f#32 0x1000#32 [] [])
      (fun t => gives t [(0#4, 0x100c#32)] && (t.cpu.ts == 1)) = true := by decide

theorem test_mov_pc :
    arm 0xE1A0F00E#32 (small .B 0x1f#32 0x1000#32 [(14#4, 0x2003#32)] [])
      (fun t => (t.cpu.pc == 0x2000#32) && !t.cpu.cpsr.t && (t.cpu.lastbus == none)) = true := by decide

/-! ### Multiplies and saturating arithmetic (95_test_vectors.md, sections 2.4 and 2.5). -/

theorem test_mul :
    arm 0xE0000291#32 (small .B 0x1f#32 0x1000#32 [(1#4, 6#32), (2#4, 7#32)] [])
      (fun t => gives t [(0#4, 0x2a#32)] && (t.cpu.ts == 1)) = true := by decide

theorem test_muls_keeps_carry_on_A :
    arm 0xE0100291#32 (small .A 0x3000001f#32 0x1000#32 [(1#4, 0xffffffff#32), (2#4, 0xffffffff#32)] [])
      (fun t => gives t [(0#4, 1#32)] && (nzcv t == 0b11#4)) = true := by decide

theorem test_mla :
    arm 0xE0203291#32 (small .B 0x1f#32 0x1000#32 [(1#4, 6#32), (2#4, 7#32), (3#4, 8#32)] [])
      (fun t => gives t [(0#4, 0x32#32)] && (t.cpu.ts == 2)) = true := by decide

theorem test_umull :
    arm 0xE0810392#32 (small .B 0x1f#32 0x1000#32 [(2#4, 0xffffffff#32), (3#4, 0xffffffff#32)] [])
      (fun t => gives t [(0#4, 1#32), (1#4, 0xfffffffe#32)] && (t.cpu.ts == 5)) = true := by decide

theorem test_umlal :
    arm 0xE0A10392#32 (small .B 0x1f#32 0x1000#32 [(0#4, 2#32), (2#4, 0xffffffff#32), (3#4, 2#32)] [])
      (fun t => gives t [(0#4, 0#32), (1#4, 2#32)]) = true := by decide

theorem test_smull :
    arm 0xE0C10392#32 (small .B 0x1f#32 0x1000#32 [(2#4, 0x80000000#32), (3#4, 0x80000000#32)] [])
      (fun t => gives t [(0#4, 0#32), (1#4, 0x40000000#32)]) = true := by decide

theorem test_smlal :
    arm 0xE0E10392#32 (small .B 0x1f#32 0x1000#32 [(0#4, 2#32), (2#4, 0xffffffff#32), (3#4, 2#32)] [])
      (fun t => gives t [(0#4, 0#32), (1#4, 0#32)]) = true := by decide

theorem test_qadd_saturates :
    arm 0xE1020051#32 (small .A 0x1f#32 0x1000#32 [(1#4, 0x7fffffff#32), (2#4, 1#32)] [])
      (fun t => gives t [(0#4, 0x7fffffff#32)] && t.cpu.cpsr.q) = true := by decide

theorem test_qsub_saturates :
    arm 0xE1220051#32 (small .A 0x1f#32 0x1000#32 [(1#4, 0#32), (2#4, 0x80000000#32)] [])
      (fun t => gives t [(0#4, 0x7fffffff#32)] && t.cpu.cpsr.q) = true := by decide

theorem test_qdadd_doubling_saturates :
    arm 0xE1420051#32 (small .A 0x1f#32 0x1000#32 [(1#4, 0#32), (2#4, 0x40000000#32)] [])
      (fun t => gives t [(0#4, 0x7fffffff#32)] && t.cpu.cpsr.q) = true := by decide

theorem test_qdsub :
    arm 0xE1620051#32 (small .A 0x1f#32 0x1000#32 [(1#4, 0xa#32), (2#4, 2#32)] [])
      (fun t => gives t [(0#4, 6#32)] && !t.cpu.cpsr.q) = true := by decide

theorem test_clz :
    arm 0xE16F0F11#32 (small .A 0x1f#32 0x1000#32 [(1#4, 0x10000#32)] [])
      (fun t => gives t [(0#4, 0xf#32)]) = true := by decide

theorem test_smlabb_overflow :
    arm 0xE1003281#32 (small .A 0x1f#32 0x1000#32 [(1#4, 0x8000#32), (2#4, 0x8000#32), (3#4, 0x40000000#32)] [])
      (fun t => gives t [(0#4, 0x80000000#32)] && t.cpu.cpsr.q) = true := by decide

theorem test_smultt :
    arm 0xE16002E1#32 (small .A 0x1f#32 0x1000#32 [(1#4, 0xfffe0000#32), (2#4, 0x30000#32)] [])
      (fun t => gives t [(0#4, 0xfffffffa#32)]) = true := by decide

theorem test_smlawb :
    arm 0xE1203281#32 (small .A 0x1f#32 0x1000#32 [(1#4, 0x10000#32), (2#4, 3#32), (3#4, 1#32)] [])
      (fun t => gives t [(0#4, 4#32)]) = true := by decide

theorem test_smulwb :
    arm 0xE12002A1#32 (small .A 0x1f#32 0x1000#32 [(1#4, 0xffffffff#32), (2#4, 1#32)] [])
      (fun t => gives t [(0#4, 0xffffffff#32)]) = true := by decide

theorem test_smlalbb :
    arm 0xE1410382#32 (small .A 0x1f#32 0x1000#32 [(0#4, 0xffffffff#32), (1#4, 0#32), (2#4, 1#32), (3#4, 1#32)] [])
      (fun t => gives t [(0#4, 0#32), (1#4, 1#32)] && (t.cpu.ts == 2)) = true := by decide

/-! ### Loads and stores (95_test_vectors.md, sections 2.6 and 2.7). -/

theorem test_ldr_rotates :
    arm 0xE5910000#32 (small .B 0x1f#32 0x1000#32 [(1#4, 0x1801#32)] [(0x1800, 0x44332211#32), (0x1804, 0x44338811#32)])
      (fun t => gives t [(0#4, 0x11443322#32)] && (t.cpu.ts == 2)) = true := by decide

theorem test_ldr_post_indexed :
    arm 0xE4910004#32 (small .B 0x1f#32 0x1000#32 [(1#4, 0x1800#32)] [(0x1800, 0x44332211#32), (0x1804, 0x44338811#32)])
      (fun t => gives t [(0#4, 0x44332211#32), (1#4, 0x1804#32)]) = true := by decide

theorem test_ldrt :
    arm 0xE4B10004#32 (small .B 0x1f#32 0x1000#32 [(1#4, 0x1800#32)] [(0x1800, 0x44332211#32), (0x1804, 0x44338811#32)])
      (fun t => gives t [(0#4, 0x44332211#32), (1#4, 0x1804#32)]) = true := by decide

theorem test_ldrb :
    arm 0xE5D10001#32 (small .B 0x1f#32 0x1000#32 [(1#4, 0x1800#32)] [(0x1800, 0x44332211#32), (0x1804, 0x44338811#32)])
      (fun t => gives t [(0#4, 0x22#32)]) = true := by decide

theorem test_ldrh_odd_on_A :
    arm 0xE1D100B0#32 (small .A 0x1f#32 0x1000#32 [(1#4, 0x1801#32)] [(0x1800, 0x44332211#32), (0x1804, 0x44338811#32)])
      (fun t => gives t [(0#4, 0x2211#32)]) = true := by decide

theorem test_ldrh_odd_on_B :
    arm 0xE1D100B0#32 (small .B 0x1f#32 0x1000#32 [(1#4, 0x1801#32)] [(0x1800, 0x44332211#32), (0x1804, 0x44338811#32)])
      (fun t => gives t [(0#4, 0x11000022#32)]) = true := by decide

theorem test_ldrsh_odd_on_A :
    arm 0xE1D100F0#32 (small .A 0x1f#32 0x1000#32 [(1#4, 0x1805#32)] [(0x1800, 0x44332211#32), (0x1804, 0x44338811#32)])
      (fun t => gives t [(0#4, 0xffff8811#32)]) = true := by decide

theorem test_ldrsh_odd_on_B :
    arm 0xE1D100F0#32 (small .B 0x1f#32 0x1000#32 [(1#4, 0x1805#32)] [(0x1800, 0x44332211#32), (0x1804, 0x44338811#32)])
      (fun t => gives t [(0#4, 0xffffff88#32)]) = true := by decide

theorem test_ldrsb :
    arm 0xE1D100D1#32 (small .B 0x1f#32 0x1000#32 [(1#4, 0x1804#32)] [(0x1800, 0x44332211#32), (0x1804, 0x44338811#32)])
      (fun t => gives t [(0#4, 0xffffff88#32)]) = true := by decide

theorem test_ldrd :
    arm 0xE1C120D0#32 (small .A 0x1f#32 0x1000#32 [(1#4, 0x1800#32)] [(0x1800, 0x44332211#32), (0x1804, 0x44338811#32)])
      (fun t => gives t [(2#4, 0x44332211#32), (3#4, 0x44338811#32)]) = true := by decide

theorem test_str_pc :
    arm 0xE581F000#32 (small .B 0x1f#32 0x1000#32 [(1#4, 0x3000#32)] [])
      (fun t => (wordAt t 0x3000 == 0x100C#32)) = true := by decide

theorem test_str_aligns :
    arm 0xE5810000#32 (small .B 0x1f#32 0x1000#32 [(1#4, 0x3001#32), (0#4, 0x4d#32)] [])
      (fun t => (wordAt t 0x3000 == 77#32)) = true := by decide

theorem test_str_scaled_down :
    arm 0xE7010102#32 (small .B 0x1f#32 0x1000#32 [(1#4, 0x1810#32), (2#4, 4#32), (0#4, 0x63#32)] [])
      (fun t => (wordAt t 0x1800 == 99#32)) = true := by decide

theorem test_strb :
    arm 0xE5C10000#32 (small .B 0x1f#32 0x1000#32 [(1#4, 0x1800#32), (0#4, 0x1234#32)]
      [(0x1800, 0x44332211#32), (0x1804, 0x44338811#32)])
      (fun t => (wordAt t 0x1800 == 0x44332234#32)) = true := by decide

theorem test_strh :
    arm 0xE1C100B2#32 (small .B 0x1f#32 0x1000#32 [(1#4, 0x3000#32), (0#4, 0xabcd1234#32)] [])
      (fun t => (wordAt t 0x3000 == 0x12340000#32)) = true := by decide

theorem test_strd :
    arm 0xE1C120F0#32 (small .A 0x1f#32 0x1000#32 [(1#4, 0x3000#32), (2#4, 1#32), (3#4, 2#32)] [])
      (fun t => (wordAt t 0x3000 == 1#32) && (wordAt t 0x3004 == 2#32)) = true := by decide

theorem test_swp :
    arm 0xE1010092#32 (small .B 0x1f#32 0x1000#32 [(1#4, 0x1800#32), (2#4, 5#32)]
      [(0x1800, 0x44332211#32), (0x1804, 0x44338811#32)])
      (fun t => gives t [(0#4, 0x44332211#32)] && (wordAt t 0x1800 == 5#32)) = true := by decide

theorem test_swpb :
    arm 0xE1420091#32 (small .B 0x1f#32 0x1000#32 [(2#4, 0x1800#32), (1#4, 0x1ff#32)]
      [(0x1800, 0x44332211#32), (0x1804, 0x44338811#32)])
      (fun t => gives t [(0#4, 0x11#32)] && (wordAt t 0x1800 == 0x443322FF#32)) = true := by decide

theorem test_ldr_pc_on_A :
    arm 0xE591F000#32 (small .A 0x1f#32 0x1000#32 [(1#4, 0x1800#32)] [(0x1800, 0x2001#32)])
      (fun t => (t.cpu.pc == 0x2000#32) && t.cpu.cpsr.t) = true := by decide

theorem test_ldr_pc_on_B :
    arm 0xE591F000#32 (small .B 0x1f#32 0x1000#32 [(1#4, 0x1800#32)] [(0x1800, 0x2001#32)])
      (fun t => (t.cpu.pc == 0x2000#32) && !t.cpu.cpsr.t) = true := by decide

theorem test_ldmia :
    arm 0xE8B0000E#32 (small .B 0x1f#32 0x1000#32 [(0#4, 0x1800#32)]
      [(0x17f4, 1#32), (0x17f8, 2#32), (0x17fc, 3#32), (0x1800, 4#32), (0x1804, 5#32), (0x1808, 6#32), (0x180c, 7#32)])
      (fun t => gives t [(1#4, 4#32), (2#4, 5#32), (3#4, 6#32), (0#4, 0x180c#32)] && (t.cpu.ts == 4)) = true := by decide

theorem test_ldmdb :
    arm 0xE930000E#32 (small .B 0x1f#32 0x1000#32 [(0#4, 0x1800#32)]
      [(0x17f4, 1#32), (0x17f8, 2#32), (0x17fc, 3#32), (0x1800, 4#32), (0x1804, 5#32), (0x1808, 6#32), (0x180c, 7#32)])
      (fun t => gives t [(1#4, 1#32), (2#4, 2#32), (3#4, 3#32), (0#4, 0x17f4#32)]) = true := by decide

theorem test_ldm_base_listed_on_A :
    arm 0xE8B00003#32 (small .A 0x1f#32 0x1000#32 [(0#4, 0x1800#32)]
      [(0x17f4, 1#32), (0x17f8, 2#32), (0x17fc, 3#32), (0x1800, 4#32), (0x1804, 5#32), (0x1808, 6#32), (0x180c, 7#32)])
      (fun t => gives t [(0#4, 0x1808#32)]) = true := by decide

theorem test_ldm_base_listed_on_B :
    arm 0xE8B00003#32 (small .B 0x1f#32 0x1000#32 [(0#4, 0x1800#32)]
      [(0x17f4, 1#32), (0x17f8, 2#32), (0x17fc, 3#32), (0x1800, 4#32), (0x1804, 5#32), (0x1808, 6#32), (0x180c, 7#32)])
      (fun t => gives t [(0#4, 4#32)]) = true := by decide

/-- Processor B with R0 = 0x1800, R1 = 1, R2 = 2 and no memory behind any address: its bus answers 7 and then 9. -/
def onBus : State :=
  { small .B 0x1f#32 0x1000#32 [(0#4, 0x1800#32), (1#4, 1#32), (2#4, 2#32)] [] with
    maps := ⟨[], []⟩
    inbox := [⟨7#32, [], []⟩, ⟨9#32, [], []⟩] }

theorem test_ldmdb_on_bus :
    arm 0xE9100006#32 onBus (fun t => gives t [(2#4, 7#32), (1#4, 9#32)] &&
      (t.outbox == [.busRead .B 0x17F8#32 .word, .busRead .B 0x17FC#32 .word])) = true := by decide

theorem test_stmdb_on_bus :
    arm 0xE9000006#32 onBus (fun t =>
      t.outbox == [.busWrite .B 0x17F8#32 .word 1#32, .busWrite .B 0x17FC#32 .word 2#32]) = true := by decide

theorem test_stm_base_lowest :
    arm 0xE8A00003#32 (small .B 0x1f#32 0x1000#32 [(0#4, 0x1800#32)] [])
      (fun t => gives t [(0#4, 0x1808#32)] && (wordAt t 0x1800 == 0x1800#32)) = true := by decide

theorem test_stm_base_not_lowest :
    arm 0xE8A10003#32 (small .B 0x1f#32 0x1000#32 [(1#4, 0x1800#32)] [])
      (fun t => gives t [(1#4, 0x1808#32)] && (wordAt t 0x1804 == 0x1808#32)) = true := by decide

/-! ### Branches, status registers, coprocessor (95_test_vectors.md, sections 2.8, 2.9 and 2.11). -/

theorem test_b_forward :
    arm 0xEA000002#32 (small .B 0x1f#32 0x1000#32 [] [])
      (fun t => (t.cpu.pc == 0x1010#32) && (t.cpu.ts == 1)) = true := by decide

theorem test_bl :
    arm 0xEB000002#32 (small .B 0x1f#32 0x1000#32 [] [])
      (fun t => (t.cpu.pc == 0x1010#32) && gives t [(14#4, 0x1004#32)]) = true := by decide

theorem test_bx_to_thumb :
    arm 0xE12FFF10#32 (small .B 0x1f#32 0x1000#32 [(0#4, 0x2001#32)] [])
      (fun t => (t.cpu.pc == 0x2000#32) && t.cpu.cpsr.t) = true := by decide

theorem test_blx_register :
    arm 0xE12FFF31#32 (small .A 0x1f#32 0x1000#32 [(1#4, 0x3001#32)] [])
      (fun t => (t.cpu.pc == 0x3000#32) && t.cpu.cpsr.t && gives t [(14#4, 0x1004#32)]) = true := by decide

theorem test_blx_immediate_half :
    arm 0xFB000000#32 (small .A 0x1f#32 0x1000#32 [] [])
      (fun t => (t.cpu.pc == 0x100A#32) && t.cpu.cpsr.t && gives t [(14#4, 0x1004#32)]) = true := by decide

theorem test_swi :
    arm 0xEF060000#32 (small .B 0x1f#32 0x1000#32 [] [])
      (fun t => (t.cpu.pc == 0x8#32) && (t.cpu.cpsr.toWord == 0x93#32) && gives t [(14#4, 0x1004#32)] &&
        (t.cpu.spsr.svc.toWord == 0x1F#32)) = true := by decide

theorem test_mrs :
    arm 0xE10F0000#32 (small .B 0xd3#32 0x1000#32 [] [])
      (fun t => gives t [(0#4, 0xd3#32)]) = true := by decide

theorem test_msr_flags :
    arm 0xE328F4F0#32 (small .B 0x10#32 0x1000#32 [] [])
      (fun t => (t.cpu.cpsr.toWord == 0xF0000010#32)) = true := by decide

theorem test_msr_control_in_user_mode :
    arm 0xE321F013#32 (small .B 0x10#32 0x1000#32 [] [])
      (fun t => (t.cpu.cpsr.toWord == 0x10#32)) = true := by decide

theorem test_msr_spsr :
    arm 0xE16FF000#32 (small .B 0x92#32 0x1000#32 [(0#4, 0x10#32)] [])
      (fun t => (t.cpu.spsr.irq.toWord == 0x10#32)) = true := by decide

theorem test_wait_for_interrupt :
    arm 0xEE070F90#32 { small .A 0xd3#32 0x1000#32 [] [] with inbox := [⟨0#32, [], []⟩] }
      (fun t => t.cpu.halted && (t.cpu.pc == 0x1004#32)) = true := by decide

/-! ### Thumb (95_test_vectors.md, sections 2.10 and 2.11). -/

theorem test_t_lsl :
    thumb 0x0088#16 (small .B 0x3f#32 0x2000#32 [(1#4, 0xc0000001#32)] [])
      (fun t => gives t [(0#4, 4#32)] && (nzcv t == 0b10#4)) = true := by decide

theorem test_t_lsr_32 :
    thumb 0x0808#16 (small .B 0x3f#32 0x2000#32 [(1#4, 0x80000000#32)] [])
      (fun t => gives t [(0#4, 0#32)] && (nzcv t == 0b110#4)) = true := by decide

theorem test_t_asr_32 :
    thumb 0x1008#16 (small .B 0x3f#32 0x2000#32 [(1#4, 0x80000000#32)] [])
      (fun t => gives t [(0#4, 0xffffffff#32)] && (nzcv t == 0b1010#4)) = true := by decide

theorem test_t_add_overflow :
    thumb 0x1888#16 (small .B 0x3f#32 0x2000#32 [(1#4, 0x7fffffff#32), (2#4, 1#32)] [])
      (fun t => gives t [(0#4, 0x80000000#32)] && (nzcv t == 0b1001#4)) = true := by decide

theorem test_t_mov_keeps_c_v :
    thumb 0x2005#16 (small .B 0x3000003f#32 0x2000#32 [] [])
      (fun t => gives t [(0#4, 5#32)] && (nzcv t == 0b11#4)) = true := by decide

theorem test_t_lsl_by_zero :
    thumb 0x4088#16 (small .B 0x2000003f#32 0x2000#32 [(0#4, 5#32), (1#4, 0#32)] [])
      (fun t => gives t [(0#4, 5#32)] && (nzcv t == 0b10#4) && (t.cpu.ts == 1)) = true := by decide

theorem test_t_ror_by_32 :
    thumb 0x41C8#16 (small .B 0x3f#32 0x2000#32 [(0#4, 0x80000001#32), (1#4, 0x20#32)] [])
      (fun t => gives t [(0#4, 0x80000001#32)] && (nzcv t == 0b1010#4)) = true := by decide

theorem test_t_neg_overflow :
    thumb 0x4248#16 (small .B 0x3f#32 0x2000#32 [(1#4, 0x80000000#32)] [])
      (fun t => gives t [(0#4, 0x80000000#32)] && (nzcv t == 0b1001#4)) = true := by decide

theorem test_t_mul :
    thumb 0x4348#16 (small .A 0x3f#32 0x2000#32 [(0#4, 6#32), (1#4, 7#32)] [])
      (fun t => gives t [(0#4, 0x2a#32)] && (nzcv t == 0b0#4)) = true := by decide

theorem test_t_adc :
    thumb 0x4148#16 (small .B 0x2000003f#32 0x2000#32 [(0#4, 0xffffffff#32), (1#4, 0#32)] [])
      (fun t => gives t [(0#4, 0#32)] && (nzcv t == 0b110#4)) = true := by decide

theorem test_t_sbc :
    thumb 0x4188#16 (small .B 0x3f#32 0x2000#32 [(0#4, 0#32), (1#4, 0#32)] [])
      (fun t => gives t [(0#4, 0xffffffff#32)] && (nzcv t == 0b1000#4)) = true := by decide

theorem test_t_add_hi_no_flags :
    thumb 0x4440#16 (small .B 0x5000003f#32 0x2000#32 [(0#4, 1#32), (8#4, 2#32)] [])
      (fun t => gives t [(0#4, 3#32)] && (nzcv t == 0b101#4)) = true := by decide

theorem test_t_cmp_hi :
    thumb 0x4580#16 (small .B 0x3f#32 0x2000#32 [(0#4, 1#32), (8#4, 1#32)] [])
      (fun t => (nzcv t == 0b110#4)) = true := by decide

theorem test_t_bx :
    thumb 0x4770#16 (small .B 0x3f#32 0x2000#32 [(14#4, 0x3000#32)] [])
      (fun t => (t.cpu.pc == 0x3000#32) && !t.cpu.cpsr.t) = true := by decide

theorem test_t_blx_register :
    thumb 0x4788#16 (small .A 0x3f#32 0x2000#32 [(1#4, 0x4001#32)] [])
      (fun t => (t.cpu.pc == 0x4000#32) && t.cpu.cpsr.t && gives t [(14#4, 0x2003#32)]) = true := by decide

theorem test_t_ldr_pc_relative :
    thumb 0x4801#16 (small .B 0x3f#32 0x2002#32 [] [(0x2008, 0x63#32)])
      (fun t => gives t [(0#4, 0x63#32)]) = true := by decide

theorem test_t_ldr_rotates :
    thumb 0x5888#16 (small .B 0x3f#32 0x2000#32 [(1#4, 0x1000#32), (2#4, 2#32)] [(0x1000, 0x44332211#32)])
      (fun t => gives t [(0#4, 0x22114433#32)]) = true := by decide

theorem test_t_add_pc_aligned :
    thumb 0xA001#16 (small .B 0x3f#32 0x2002#32 [] [])
      (fun t => gives t [(0#4, 0x2008#32)]) = true := by decide

theorem test_t_sub_sp :
    thumb 0xB082#16 (small .B 0x3f#32 0x2000#32 [(13#4, 0x1000#32)] [])
      (fun t => gives t [(13#4, 0xff8#32)]) = true := by decide

theorem test_t_push :
    thumb 0xB501#16 (small .B 0x3f#32 0x2000#32 [(13#4, 0x3000#32), (0#4, 1#32), (14#4, 2#32)] [])
      (fun t => gives t [(13#4, 0x2ff8#32)] && (wordAt t 0x2FF8 == 1#32) && (wordAt t 0x2FFC == 2#32)) = true := by decide

theorem test_t_pop_pc_on_A :
    thumb 0xBD01#16 (small .A 0x3f#32 0x2000#32 [(13#4, 0x2ff8#32)] [(0x2ff8, 7#32), (0x2ffc, 0x4000#32)])
      (fun t => gives t [(0#4, 7#32), (13#4, 0x3000#32)] && (t.cpu.pc == 0x4000#32) && !t.cpu.cpsr.t) = true := by decide

theorem test_t_pop_pc_on_B :
    thumb 0xBD01#16 (small .B 0x3f#32 0x2000#32 [(13#4, 0x2ff8#32)] [(0x2ff8, 7#32), (0x2ffc, 0x4003#32)])
      (fun t => (t.cpu.pc == 0x4002#32) && t.cpu.cpsr.t) = true := by decide

theorem test_t_ldmia :
    thumb 0xC806#16 (small .B 0x3f#32 0x2000#32 [(0#4, 0x1000#32)] [(0x1000, 5#32), (0x1004, 6#32)])
      (fun t => gives t [(0#4, 0x1008#32), (1#4, 5#32), (2#4, 6#32)]) = true := by decide

theorem test_t_stmia :
    thumb 0xC006#16 (small .B 0x3f#32 0x2000#32 [(0#4, 0x1000#32), (1#4, 8#32), (2#4, 9#32)] [])
      (fun t => gives t [(0#4, 0x1008#32)] && (wordAt t 0x1004 == 9#32)) = true := by decide

theorem test_t_beq_taken :
    thumb 0xD002#16 (small .B 0x4000003f#32 0x2000#32 [] [])
      (fun t => (t.cpu.pc == 0x2008#32)) = true := by decide

theorem test_t_swi :
    thumb 0xDF06#16 (small .B 0x3f#32 0x2000#32 [] [])
      (fun t => (t.cpu.pc == 0x8#32) && (t.cpu.cpsr.toWord == 0x93#32) && gives t [(14#4, 0x2002#32)] &&
        (t.cpu.spsr.svc.toWord == 0x3F#32)) = true := by decide

theorem test_t_bl_prefix :
    thumb 0xF001#16 (small .B 0x3f#32 0x1000#32 [] [])
      (fun t => (t.cpu.pc == 0x1002#32) && gives t [(14#4, 0x2004#32)]) = true := by decide

theorem test_t_bl_suffix :
    thumb 0xFFFE#16 (small .B 0x3f#32 0x1002#32 [(14#4, 0x2004#32)] [])
      (fun t => (t.cpu.pc == 0x3000#32) && gives t [(14#4, 0x1005#32)]) = true := by decide

theorem test_t_blx_suffix :
    thumb 0xEFFE#16 (small .A 0x3f#32 0x1002#32 [(14#4, 0x2004#32)] [])
      (fun t => (t.cpu.pc == 0x3000#32) && gives t [(14#4, 0x1005#32)] && !t.cpu.cpsr.t) = true := by decide
/-! ### Exceptions, the user bank, waiting and the scheduler (95_test_vectors.md, sections 1.5 to 1.9, 2.7, 2.11, 2.12) -/

/-- An interrupt is enabled and pending on both processors. -/
def requested : Pair IrqUnit := ⟨⟨true, 1#32, 1#32⟩, ⟨true, 1#32, 1#32⟩⟩

theorem test_irq_entry_arm :
    after (retire (.next { small .B 0x1F#32 0x104#32 [] [] with irqs := requested })) (fun t =>
      gives t [(14#4, 0x108#32)] && t.cpu.pc == 0x18#32 && t.cpu.cpsr.toWord == 0x92#32 &&
        t.cpu.spsr.irq.toWord == 0x1F#32) = true := by decide

theorem test_irq_entry_thumb :
    after (retire (.next { small .B 0x3F#32 0x202#32 [] [] with irqs := requested })) (fun t =>
      gives t [(14#4, 0x206#32)] && t.cpu.pc == 0x18#32 && t.cpu.cpsr.toWord == 0x92#32 &&
        t.cpu.spsr.irq.toWord == 0x3F#32) = true := by decide

theorem test_irq_return :
    let s := (small .B 0x92#32 0x1000#32 [(14#4, 0x206#32)] []).withCpu fun q =>
      { q with spsr := { q.spsr with irq := Psr.ofWord 0x3F#32 } }
    arm 0xE25EF004#32 s (fun t => t.cpu.cpsr.toWord == 0x3F#32 && t.cpu.pc == 0x202#32) = true := by decide

theorem test_stm_user_bank :
    let s := (small .B 0x92#32 0x1000#32 [(0#4, 0x2000#32), (13#4, 0x03007FA0#32)] []).withCpu fun q =>
      q.setBankReg Mode.usr.bits 13#4 0x03007F00#32
    arm 0xE8C02000#32 s (fun t => wordAt t 0x2000 == 0x03007F00#32 && gives t [(13#4, 0x03007FA0#32)]) = true := by decide

theorem test_ldm_restores_status :
    let s := (small .B 0x92#32 0x1000#32 [(13#4, 0x1800#32)] [(0x1800, 9#32), (0x1804, 0x2002#32)]).withCpu fun q =>
      { q with spsr := { q.spsr with irq := Psr.ofWord 0x1F#32 } }
    arm 0xE8FD8001#32 s (fun t => gives t [(0#4, 9#32)] && t.cpu.pc == 0x2000#32 && t.cpu.cpsr.toWord == 0x1F#32 &&
      t.cpu.bankReg Mode.irq.bits 13#4 == 0x1808#32) = true := by decide

theorem test_halted_wakes_masked :
    let s : State := { small .A 0xD3#32 0x1000#32 [] [] with
      systemTs := 1, irqs := ⟨⟨false, 1#32, 1#32⟩, ⟨false, 0#32, 0#32⟩⟩ }
    after (step (s.withCpu fun q => { q with halted := true })) (fun t =>
      !t.cpu.halted && t.cpu.pc == 0x1000#32 && t.cpu.cpsr.toWord == 0xD3#32) = true := by decide

theorem test_waitstate_charged :
    let s : State := (small .B 0x3F#32 0x02000000#32 [] [(0x02000000, 0x21022001#32)]).setWaitstate .B 2#4 .n16 ⟨2⟩
    after (step { s with systemTs := 1, cfg := { s.cfg with first := .B } }) (fun t => t.cpu.ts == 3) = true := by decide

theorem test_equal_activation_in_order_of_creation :
    { State.reset with events := [⟨7, 0, 0⟩, ⟨8, 0, 1⟩], nextSeq := 2, phase := .dispatch 2 }.action =
      .dispatch ⟨⟨7, 0, 0⟩, 2⟩ := by decide

/-! ### Witnesses: for each obligation with hypotheses, states and operands that meet them, clause by clause -/

/-- A next state, from the test that finds one. -/
theorem next_of_after {r : Result} {f : State → Bool} (h : after r f = true) : ∃ t, r = .next t ∧ f t = true := by
  cases r with
  | next s => exact ⟨s, rfl, h⟩
  | fault _ => simp [after] at h
  | refused _ => simp [after] at h

/-- A processor at rest in SYS mode, ARM state, at 0x1000. -/
abbrev rest (p : Proc) : State := small p 0x1F#32 0x1000#32 [] []

/-- A processor in the mode of a status word. -/
abbrev inMode (p : Proc) (cpsr : Word) : State := small p cpsr 0x1000#32 [] []

/-- A is behind the clock and about to run a word. -/
abbrev start (w : Word) : State := { small .A 0x1F#32 0x1000#32 [] [(0x1000, w)] with systemTs := 1 }

/-- A is halted and behind the clock, its interrupt unit and VECTOR_ON_WAKE as given. -/
def asleep (vector : Bool) (u : IrqUnit) : State :=
  { start 0#32 with
    cfg := { Config.standard with vectorOnWake := vector }
    cpus := (start 0#32).cpus.modify .A fun q => { q with halted := true }
    irqs := ⟨u, u⟩ }

/-- Two due events, the first of them created before the dispatch began. -/
def twoEvents : State := { State.reset with events := [⟨7, 0, 0⟩, ⟨8, 0, 1⟩], nextSeq := 2, phase := .dispatch 1 }

theorem witness_DecodeOfEncode :
    (Instr.ldrImm .al true false true 1#4 0#4 4#12).wf = true ∧
      (Instr.ldrImm .al true false true 1#4 0#4 4#12).onlyA = false ∧
      (Instr.clz .al 0#4 1#4).wf = true ∧ (Instr.clz .al 0#4 1#4).onlyA = true ∧ (Instr.tBlxSuffix 0x7FE#11).wf = true := by
  decide

theorem witness_DecodedIsWellFormed :
    decode .B false [0x00#8, 0x00#8, 0x50#8, 0xE1#8, 7#8] = .ok (.cmpRsi .al 0#4 0#5 .lsl 0#4, [7#8]) ∧
      decode .A true [0x02#8, 0xE8#8] = .ok (.tBlxSuffix 2#11, []) := by decide

theorem witness_BLacksOnlyTheAClasses :
    decode .A false [0x00#8, 0x00#8, 0x50#8, 0xE1#8] = .ok (.cmpRsi .al 0#4 0#5 .lsl 0#4, []) ∧
      (Instr.cmpRsi .al 0#4 0#5 .lsl 0#4).onlyA = false ∧
      decode .A true [0x02#8, 0xE8#8] = .ok (.tBlxSuffix 2#11, []) ∧ (Instr.tBlxSuffix 2#11).onlyA = true ∧
      decode .A false [0x00#8, 0x00#8, 0x00#8, 0xF0#8] = .error .unconditionalSpace := by decide

/-- A with nothing but the bus collaborator behind its addresses, which answers its fetch with a word. -/
def startOnBus (w : Word) : State :=
  { start 0#32 with maps := ⟨[], []⟩, inbox := [⟨w, [.setIme .A true], []⟩] }

theorem witness_StepRunsDecoded :
    ((startOnBus 0xE0500001#32).action = .run .A ∧ ((startOnBus 0xE0500001#32).cpus.get .A).halted = false ∧
      cellsIn ((startOnBus 0xE0500001#32).maps.get .A) 0x1000 4 = none ∧
      decode .A false (bytesOf 0xE0500001#32 4) = .ok (.subRsi .al true 0#4 0#4 0#5 .lsl 1#4, []) ∧
      after (step (startOnBus 0xE0500001#32)) (fun t => (t.irqs.get .A).ime && t.inbox == []) = true) ∧
    (start 0xE0500001#32).action = .run .A ∧ ((start 0xE0500001#32).cpus.get .A).halted = false ∧
      cellsIn ((start 0xE0500001#32).maps.get .A) 0x1000 4 = some [0x1000, 0x1001, 0x1002, 0x1003] ∧
      decode .A false ([0x1000, 0x1001, 0x1002, 0x1003].map (start 0xE0500001#32).mem.get) =
        .ok (.subRsi .al true 0#4 0#4 0#5 .lsl 1#4, []) := by decide

theorem witness_UndefinedWordIsFatal :
    (cellsIn ((startOnBus 0xF0000000#32).maps.get .A) 0x1000 4 = none ∧ (startOnBus 0xF0000000#32).action = .run .A ∧
      decode .A false (bytesOf 0xF0000000#32 4) = .error .unconditionalSpace) ∧
    (start 0xF0000000#32).action = .run .A ∧ ((start 0xF0000000#32).cpus.get .A).halted = false ∧
      cellsIn ((start 0xF0000000#32).maps.get .A) 0x1000 4 = some [0x1000, 0x1001, 0x1002, 0x1003] ∧
      decode .A false ([0x1000, 0x1001, 0x1002, 0x1003].map (start 0xF0000000#32).mem.get) = .error .unconditionalSpace := by
  decide

theorem witness_StopsNameTheInstruction : exec (.tBkpt 0#8) (rest .A) = .fault (.unsupported 0#32 0x1000#32) := rfl

theorem witness_PollAfterRetirement :
    let s : State := { rest .B with irqs := ⟨⟨false, 0#32, 0#32⟩, ⟨true, 0x80000000#32, 0x80000000#32⟩⟩ }
    let u := s.irqs.get s.cur
    (u.ime = true ∧ u.enable &&& u.pending ≠ 0#32 ∧ s.cpu.cpsr.i = false ∧ s.cpu.halted = false) ∧
      ¬((rest .B).irqs.get .B).ime = true := by decide

theorem witness_HaltedProcessorStep :
    (asleep false ⟨false, 1#32, 0#32⟩).action = .run .A ∧
      ((asleep false ⟨false, 1#32, 0#32⟩).cpus.get .A).halted = true ∧
      (asleep false ⟨false, 1#32, 1#32⟩).action = .run .A ∧
      (asleep false ⟨false, 1#32, 1#32⟩).cfg.vectorOnWake = false ∧
      (asleep true ⟨true, 1#32, 1#32⟩).action = .run .A ∧
      (asleep true ⟨true, 1#32, 1#32⟩).cfg.vectorOnWake = true ∧
      ((asleep true ⟨true, 1#32, 1#32⟩).cpus.get .A).cpsr.i = false := by decide

theorem witness_MaskedRequestOnlyWakes :
    let s := asleep true ⟨false, 0x80000000#32, 0#32⟩
    s.action = .run .A ∧ (s.cpus.get .A).halted = true ∧ (s.irqs.get .A).enable.getLsbD 31 = true ∧
      (s.irqs.get .A).ime = false := by decide

theorem witness_StepFollowsTheIteration :
    (twoEvents.phase = .dispatch 1 ∧ ∃ e ∈ twoEvents.events, e.activation ≤ twoEvents.systemTs) ∧
      ((start 0#32).phase ≠ .roundSecond ∧ (start 0#32).cpus.a.ts < 2 * (start 0#32).systemTs) ∧
      (let s : State := { start 0#32 with phase := .roundSecond }
       s.cpus.b.ts < s.systemTs ∧ s.cfg.first = .A) ∧
      (let s : State := { start 0#32 with
          phase := .roundSecond, cpus := ⟨(start 0#32).cpus.a, { (start 0#32).cpus.b with ts := 1 }⟩ }
       ¬s.cpus.b.ts < s.systemTs ∧ s.cpus.a.ts < 2 * s.systemTs) ∧
      (¬State.reset.cpus.a.ts < 2 * State.reset.systemTs ∧ ¬State.reset.cpus.b.ts < State.reset.systemTs) := by decide

theorem witness_ClockAdvanceIsBounded :
    State.reset.action = .advance ∧
      (let s : State := { State.reset with events := [⟨7, 2, 0⟩] }
       s.action = .advance ∧ ∃ e ∈ s.events, s.systemTs < e.activation) ∧
      (let s : State := { State.reset with events := [⟨7, 0, 0⟩] }
       s.action = .advance ∧ ∃ e ∈ s.events, e.activation ≤ s.systemTs) := by decide

theorem inv_twoEvents : twoEvents.Inv :=
  ⟨by decide, by intro p; cases p <;> exact ⟨by decide, by decide⟩, by decide, by decide⟩

theorem witness_EventsLeaveInOrder :
    twoEvents.Inv ∧ twoEvents.phase = .dispatch 1 ∧ twoEvents.action = .dispatch ⟨⟨7, 0, 0⟩, 1⟩ :=
  ⟨inv_twoEvents, by decide, by decide⟩

theorem witness_TimestampsGrow :
    (∃ t, step (start 0xE0500001#32) = .next t ∧ true = true) ∧ (start 0xE0500001#32).action = .run .A ∧
      (∃ t, step State.reset = .next t ∧ true = true) ∧ ∀ p, State.reset.action ≠ .run p :=
  ⟨next_of_after (f := fun _ => true) (by decide), by decide, next_of_after (f := fun _ => true) (by decide),
    by intro p; cases p <;> decide⟩

theorem witness_OtherProcessorUntouched :
    (∃ t, step (start 0xE0500001#32) = .next t ∧ true = true) ∧ (start 0xE0500001#32).action ≠ .run .B :=
  ⟨next_of_after (f := fun _ => true) (by decide), by decide⟩

theorem witness_OtherProcessorUnseen :
    let other := { ProcState.reset .B with halted := true, ts := 5 }
    ((start 0xE0500001#32).action = .run .A ∧
      { start 0xE0500001#32 with cpus := (start 0xE0500001#32).cpus.put .B other }.action = .run .A ∧
      after (step (start 0xE0500001#32)) (fun _ => true) = true) ∧
    ((start 0xF0000000#32).action = .run .A ∧
      { start 0xF0000000#32 with cpus := (start 0xF0000000#32).cpus.put .B other }.action = .run .A ∧
      after (step (start 0xF0000000#32)) (fun _ => true) = false) := by decide

theorem witness_StepKeepsInvariant :
    (start 0xE0500001#32).Inv ∧ ∃ t, step (start 0xE0500001#32) = .next t ∧ true = true :=
  ⟨⟨by decide, by intro p; cases p <;> exact ⟨by decide, by decide⟩, by decide, by decide⟩,
    next_of_after (f := fun _ => true) (by decide)⟩

theorem witness_InvariantAtReset :
    (0x02000000#32 &&& 3#32 = 0#32 ∧ 0xFFFFFFFC#32 &&& 3#32 = 0#32) ∧
      let seeds : BootSeeds := { BootSeeds.standard .A 0x02000002#32 with cpsr := { Psr.boot with t := true, m := Mode.fiq.bits } }
      modeValid seeds.cpsr.m = true ∧ alignPc seeds.cpsr.t seeds.pc = seeds.pc := by
  decide

/-- The example values of R422. -/
theorem test_directBoot :
    let q := (State.directBoot ⟨BootSeeds.standard .A 0x02000800#32, BootSeeds.standard .B 0x02380000#32⟩).cpus.get .B
    q.cpsr.toWord = 0xDF#32 ∧ q.pc = 0x02380000#32 ∧ q.gpr 12#4 = 0x02380000#32 ∧ q.gpr 14#4 = 0x02380000#32 ∧
      q.gpr 13#4 = 0x0380FD80#32 ∧ q.bankReg Mode.irq.bits 13#4 = 0x0380FF80#32 ∧
      q.bankReg Mode.svc.bits 13#4 = 0x0380FFC0#32 ∧ q.gpr 0#4 = 0#32 := by decide

theorem witness_ResetState : (State.reset.cpus.get .A).spsr.get? Mode.und.bits = some Psr.zero := by decide

theorem witness_UserModeIsConfined :
    (inMode .B 0x10#32).cpu.cpsr.m = Mode.usr.bits ∧ (Instr.msrImm .al false 0b1001#4 0#4 0xD3#8).isSwi = false ∧
      after (exec (.msrImm .al false 0b1001#4 0#4 0xD3#8) (inMode .B 0x10#32)) (fun _ => true) = true := by decide

theorem witness_ModeChangesByItsMeans :
    after (exec (.msrImm .al false 0b1001#4 0#4 0x10#8) (inMode .B 0xD3#32)) (fun t => t.cpu.cpsr.m == Mode.usr.bits) = true ∧
      after (exec (.movImm .al true 0#4 0#4 1#8) (inMode .B 0xD3#32)) (fun t => modeValid t.cpu.cpsr.m) = true := by decide

theorem witness_ThumbBitChangesByItsMeans :
    after (exec (.bx .al 0#4) (small .B 0x1F#32 0x1000#32 [(0#4, 0x2001#32)] [])) (fun t => t.cpu.cpsr.t) = true ∧
      after (exec (.ldrImm .al true true false 0#4 15#4 0#12) (small .A 0x1F#32 0x1000#32 [] [(0, 0x2001#32)]))
        (fun t => t.cpu.cpsr.t) = true ∧
      after (exec (.movRsi .al true 15#4 0#5 .lsl 0#4)
          (let s := inMode .B 0x92#32
           s.withCpu fun p => { p with spsr := p.spsr.put Mode.irq.bits (Psr.ofWord 0x3F#32) })) (fun t => t.cpu.cpsr.t) = true ∧
      after (exec (.tSwi 6#8) (small .B 0x3F#32 0x2000#32 [] [])) (fun t => !t.cpu.cpsr.t) = true := by decide

theorem witness_FlagsChangeByTheirMeans :
    (Instr.qadd .al 2#4 0#4 1#4).msrSelects 3 = false ∧ (Instr.qadd .al 2#4 0#4 1#4).restoresStatus = false ∧
      (Instr.qadd .al 2#4 0#4 1#4).handled (inMode .A 0x0800001F#32) = false ∧
      (Instr.qadd .al 2#4 0#4 1#4).writesFlags = false ∧ (Instr.movImm .al true 0#4 0#4 1#8).setsQ = false ∧
      after (exec (.qadd .al 2#4 0#4 1#4) (inMode .A 0x0800001F#32)) (fun _ => true) = true ∧
      after (exec (.movImm .al true 0#4 0#4 1#8) (inMode .A 0x0800001F#32)) (fun _ => true) = true := by decide

theorem witness_RegisterFrame :
    after (exec (.ldmS .al false true true 0#4 0x2002#16) (inMode .B 0x92#32)) (fun _ => true) = true ∧
      (15 : Fin 31) ∉ (Instr.ldmS .al false true true 0#4 0x2002#16).places (inMode .B 0x92#32) ∧
      (22 : Fin 31) ∉ (Instr.ldmS .al false true true 0#4 0x2002#16).places (inMode .B 0x92#32) ∧
      after (exec (.msrRegSpsr .al 0b1001#4 0#4) (inMode .B 0x92#32)) (fun _ => true) = true ∧
      (Instr.msrRegSpsr .al 0b1001#4 0#4).writesSpsr = true ∧ (inMode .B 0x92#32).cpu.cpsr.m ≠ Mode.svc.bits ∧
      (Instr.ldmS .al false true true 0#4 0x2002#16).handled (inMode .B 0x92#32) = false ∧
      (Instr.ldmS .al false true true 0#4 0x2002#16).isSwi = false ∧
      (Instr.ldmS .al false true true 0#4 0x2002#16).writesSpsr = false ∧
      after (exec (.tSwi 0#8) (rest .B)) (fun _ => true) = true ∧ (Instr.tSwi 0#8).isSwi = true ∧
      (Instr.tSwi 0#8).handled (rest .B) = false ∧ Mode.irq.bits ≠ Mode.svc.bits ∧
      (25 : Fin 31) ∉ (Instr.tSwi 0#8).places (rest .B) ∧ (26 : Fin 31) ∈ (Instr.tSwi 0#8).places (rest .B) := by decide

theorem witness_MemoryFrame :
    after (exec (.strImm .al true true false 1#4 0#4 8#12) (small .B 0x1F#32 0x1000#32 [(1#4, 0xFFFFFFF0#32)] []))
      (fun t => t.outbox == []) = true ∧
    cellIn ((small .B 0x1F#32 0x1000#32 [(1#4, 0xFFFFFFF0#32)] []).maps.get .B) 0xFFFFFFFC = some 0xFFFFFFFC ∧
    0xFFFFFFFC ∉ (Instr.strImm .al true true false 1#4 0#4 8#12).storedCells
      (small .B 0x1F#32 0x1000#32 [(1#4, 0xFFFFFFF0#32)] []) := by decide

theorem witness_ConditionFailed :
    (Instr.clz .eq 0#4 1#4).condition = some .eq ∧ condPassed .eq (rest .A).cpu.cpsr = false ∧ (rest .A).cur = .A ∧
      (Instr.ldcStc .eq true true true true true 0#4 0#4 15#4 0#8).condition = some .eq ∧
      condPassed .eq (rest .B).cpu.cpsr = false := by decide

theorem witness_RegisterBanks : (7#4 : Reg) ≠ 15#4 ∧ (8#4 : Reg) ≠ 15#4 ∧ (12#4 : Reg) ≠ 15#4 ∧ (14#4 : Reg) ≠ 15#4 := by
  decide

theorem witness_SoftwareInterruptEntry :
    condPassed .al (rest .B).cpu.cpsr = true ∧ (rest .B).hleHandles 6#8 = false ∧
      { rest .A with cfg := { Config.standard with hleBios := ⟨some [5#8], none⟩ } }.hleHandles 6#8 = false := by decide

theorem witness_SoftwareInterruptRoundTrip :
    after (exec (.tSwi 6#8) (small .B 0x3F#32 0x2000#32 [] [])) (fun _ => true) = true ∧
      (Instr.tSwi 6#8).isSwi = true ∧ isThumb (.tSwi 6#8) = true ∧ (small .B 0x3F#32 0x2000#32 [] []).cpu.Legal ∧
      (Instr.tSwi 6#8).condition = none ∧ (Instr.tSwi 6#8).handled (small .B 0x3F#32 0x2000#32 [] []) = false ∧
      (small .B 0x3F#32 0x2000#32 [] []).cpu.cpsr.m ≠ Mode.svc.bits :=
  ⟨by decide, by decide, by decide, ⟨by decide, by decide⟩, by decide, by decide, by decide⟩

theorem witness_HandledBiosCall :
    let s : State :=
      { rest .B with
        cfg := { Config.standard with hleBios := ⟨none, some [0xFF#8]⟩ }
        inbox := [⟨0#32, [.writeCell 5 7#8], [.setReg .sys 0#4 1#32, .setReg .fiq 14#4 2#32, .setSpsr .und Psr.reset,
          .setCpsr { Psr.zero with n := true, t := true } .irq, .charge 9, .setHalted]⟩] }
    condPassed .al s.cpu.cpsr = true ∧ s.hleHandles ((0xFF0000#24).extractLsb' 16 8) = true ∧
      (Instr.tSwi 0xFF#8).callNumber = some 0xFF#8 ∧ s.hleHandles 0xFF#8 = true ∧
      after (exec (.tSwi 0xFF#8) s) (fun t => gives t [(0#4, 1#32)] && t.cpu.bankReg Mode.fiq.bits 14#4 == 2#32 &&
        t.cpu.spsr.und == Psr.reset && t.cpu.cpsr.toWord == 0x80000012#32 && t.cpu.ts == 9 && t.cpu.halted &&
        t.mem == [(5, 7#8)]) = true ∧ (14#4 : Reg) ≠ 15#4 := by decide

theorem witness_DataProcessingToPc :
    condPassed .al (inMode .B 0x92#32).cpu.cpsr = true ∧ (Operand2.rsi 0#5 .lsl 14#4).Allowed ∧
      AluOp.mov ∉ [AluOp.tst, .teq, .cmp, .cmn] ∧
      (small .B 0x92#32 0x1000#32 [] []).cpu.spsr.get? Mode.irq.bits = some Psr.zero ∧ modeValid Psr.zero.m = false ∧
      { (inMode .B 0x92#32).cpu.spsr with irq := Psr.reset }.get? Mode.irq.bits = some Psr.reset ∧
      modeValid Psr.reset.m = true ∧
      (inMode .B 0x10#32).cpu.cpsr.m = Mode.usr.bits ∧ (rest .B).cpu.cpsr.m = Mode.sys.bits :=
  ⟨by decide, trivial, by decide, by decide, by decide, by decide, by decide, by decide, by decide⟩

theorem witness_ShifterIsExact : (31 < 32) ∧ (0#5 : BitVec 5) = 0#5 ∧ (31#5 : BitVec 5) ≠ 0#5 := by decide

theorem witness_LogicalOperations :
    condPassed .al (rest .B).cpu.cpsr = true ∧ (Operand2.imm 15#4 0xFF#8).Allowed ∧
      (Operand2.rsi 31#5 .ror 15#4).Allowed ∧
      (Operand2.rsr 14#4 .ror 15#4).Allowed ∧ (14#4 : Reg) ≠ 15#4 :=
  ⟨by decide, trivial, trivial, (by decide : (14#4 : Reg) ≠ 15#4), by decide⟩

theorem witness_ArithmeticOperations :
    condPassed .al (rest .A).cpu.cpsr = true ∧ (Operand2.imm 0#4 0#8).Allowed ∧ (Operand2.rsi 0#5 .lsr 15#4).Allowed ∧
      (Operand2.rsr 0#4 .asr 15#4).Allowed ∧ (0#4 : Reg) ≠ 15#4 :=
  ⟨by decide, trivial, trivial, (by decide : (0#4 : Reg) ≠ 15#4), by decide⟩

theorem witness_MultiplyAndAccumulate :
    condPassed .al (rest .A).cpu.cpsr = true ∧ condPassed .al (rest .B).cpu.cpsr = true ∧ (0#4 : Reg) ≠ 15#4 ∧
      (14#4 : Reg) ≠ 15#4 := by decide

theorem witness_LongMultiplies :
    condPassed .al (rest .A).cpu.cpsr = true ∧ condPassed .al (rest .B).cpu.cpsr = true ∧ (0#4 : Reg) ≠ 14#4 ∧
      (0#4 : Reg) ≠ 15#4 ∧ (14#4 : Reg) ≠ 15#4 := by decide

theorem witness_HalfwordMultiplies :
    (rest .A).cur = .A ∧ condPassed .al (rest .A).cpu.cpsr = true ∧ (0#4 : Reg) ≠ 15#4 ∧ (14#4 : Reg) ≠ 15#4 ∧
      (14#4 : Reg) ≠ 0#4 := by decide

theorem witness_SaturatingAndLeadingZeros :
    (rest .A).cur = .A ∧ condPassed .al (rest .A).cpu.cpsr = true ∧ (0#4 : Reg) ≠ 15#4 ∧ (14#4 : Reg) ≠ 15#4 ∧
      (rest .A).cpu.gpr 0#4 = 0#32 := by decide

theorem witness_MemoryAccess :
    (rest .B).cellsAt 0xFFFFFFFF#32 .word = some [0xFFFFFFFC, 0xFFFFFFFD, 0xFFFFFFFE, 0xFFFFFFFF] ∧
      (rest .B).cellsAt 0xFFFFFFFF#32 .half = some [0xFFFFFFFE, 0xFFFFFFFF] ∧
      (rest .B).cellsAt 0#32 .byte = some [0] ∧ Memory.wf (rest .B).mem ∧
      [0xFFFFFFFC, 0xFFFFFFFD, 0xFFFFFFFE, 0xFFFFFFFF].Nodup := by decide

/-- A bus without memory whose answer to a store halts the storing processor and requests an interrupt. -/
def haltingBus : State :=
  { onBus with
    cpus := onBus.cpus.modify .B fun q => { q with lastbus := some ⟨0x17FC#32, .word⟩ }
    inbox := [⟨7#32, [.requestInterrupt .A 3, .halt], []⟩] }

theorem witness_Collaborators_on_bus :
    haltingBus.cellsAt 0x1803#32 .word = none ∧ haltingBus.cpu.sequential 0x1800#32 .word = true ∧
      (let t := haltingBus.store 0x1803#32 .word 5#32;
        t.cpu.halted = true ∧ (t.irqs.get .A).pending = 8#32 ∧ t.cpu.ts = 1 ∧
        t.cpu.lastbus = some ⟨0x1800#32, .word⟩) ∧
      (let t := (haltingBus.load 0x1803#32 .word).s;
        t.cpu.halted = false ∧ (t.irqs.get .A).pending = 8#32 ∧ t.cpu.ts = 1) := by decide

theorem test_operand_cycles :
    operandCycles true 0xFFFFFF00#32 = 1 ∧ operandCycles false 0xFFFFFF00#32 = 4 ∧ operandCycles true 0x100#32 = 2 ∧
      operandCycles true 0xFFFEFFFF#32 = 3 ∧ operandCycles false 0x1000000#32 = 4 := by decide

theorem witness_Collaborators :
    { rest .B with maps := ⟨[], [⟨0, 3, some 0⟩]⟩ }.cellsAt 3#32 .byte = none ∧
      { rest .B with maps := ⟨[], [⟨0, 3, some 0⟩]⟩ }.cellsAt 0#32 .word = none ∧ (31 < 32) ∧ (32 ≤ 32) ∧
      CallSource.read ≠ .write ∧ CallSource.read ≠ .event ∧ CallSource.bios ≠ .coprocessor ∧ Memory.wf (rest .B).mem ∧
      ((rest .A).applyCall .coprocessor (.writeCell 0 1#8)).mem = [] ∧
      ((rest .A).applyCall .read (.writeCell 0 1#8)).mem = [(0, 1#8)] := by decide

theorem witness_SingleTransfers :
    condPassed .al (rest .A).cpu.cpsr = true ∧ (MemOffset.imm 0xFFF#12).Allowed ∧ (MemOffset.reg 31#5 .ror 14#4).Allowed ∧
      ((!true || false) = true → (15#4 : Reg) ≠ 15#4) ∧ ((!false || true) = true → (14#4 : Reg) ≠ 15#4) ∧
      (14#4 : Reg) ≠ 15#4 ∧ (rest .A).cur = .A ∧ (rest .B).cur = .B :=
  ⟨by decide, trivial, (by decide : (14#4 : Reg) ≠ 15#4), by decide, by decide, by decide, by decide, by decide⟩

theorem witness_HalfwordAndSignedTransfers :
    let odd := small .B 0x1F#32 0x1000#32 [(1#4, 0x1801#32)] []
    condPassed .al odd.cpu.cpsr = true ∧ (HalfOffset.imm 0xFF#8).Allowed ∧ (HalfOffset.reg 14#4).Allowed ∧
      ((!true || true) = true → (1#4 : Reg) ≠ 15#4) ∧
      (odd.cur = .B ∧ (odd.transferAddr true true 1#4 0#32).toNat % 2 = 1) ∧
      ¬(odd.cur = .B ∧ (odd.transferAddr true true 1#4 1#32).toNat % 2 = 1) :=
  ⟨by decide, trivial, (by decide : (14#4 : Reg) ≠ 15#4), by decide, by decide, by decide⟩

theorem witness_DoublewordsAndSwaps :
    ((rest .A).cur = .A ∧ condPassed .al (rest .A).cpu.cpsr = true ∧ (HalfOffset.imm 0xFF#8).Allowed ∧
      (12#4 : Reg).getLsbD 0 = false ∧ (12#4 : Reg) ≠ 14#4 ∧
      ((!true || true) = true → (14#4 : Reg) ≠ 15#4 ∧ (14#4 : Reg) ≠ 12#4 ∧ (14#4 : Reg) ≠ 12#4 + 1#4)) ∧
    (condPassed .al (rest .B).cpu.cpsr = true ∧ (14#4 : Reg) ≠ 15#4) :=
  ⟨⟨by decide, by decide, trivial, by decide, by decide, by decide⟩, by decide⟩

/-- The cells of a block whose words lie at the cells of their addresses from a on. -/
def blockCells (a k : Nat) : List Nat := [a + 4 * k, a + 4 * k + 1, a + 4 * k + 2, a + 4 * k + 3]

theorem witness_BlockLoads_on_bus :
    condPassed .al onBus.cpu.cpsr = true ∧ (0#4 : Reg) ≠ 15#4 ∧ (0x0006#16 : BitVec 16) ≠ 0#16 ∧
      (let seen := onBus.readInOrder (lowestAddr true false (onBus.cpu.gpr 0#4) 2) false (blockOrder false 2);
        seen.word 0 = 9#32 ∧ seen.word 1 = 7#32 ∧
        seen.s.outbox = [.busRead .B 0x17F8#32 .word, .busRead .B 0x17FC#32 .word]) := by decide

theorem witness_BlockLoads :
    condPassed .al (rest .A).cpu.cpsr = true ∧ (0#4 : Reg) ≠ 15#4 ∧ (0x8001#16 : BitVec 16) ≠ 0#16 ∧
      (∀ k, k < 2 → (rest .A).cellsAt (blockAddr 0x10#32 k) .word = some (blockCells 0x10 k)) ∧
      (regsOf 0x8001#16).length = 2 ∧ (0x8001#16 : BitVec 16).getLsbD 15 = true ∧
      (0x0001#16 : BitVec 16).getLsbD 15 = false ∧
      (rest .A).cur = .A ∧ (rest .B).cur = .B := by decide

theorem witness_UserBankAndRestoringLoads :
    condPassed .al (inMode .B 0x92#32).cpu.cpsr = true ∧ (14#4 : Reg) ≠ 15#4 ∧ (0x8000#16 : BitVec 16) ≠ 0#16 ∧
      (∀ k, k < 1 → (inMode .B 0x92#32).cellsAt (blockAddr 0xFFFFFFFC#32 k) .word = some (blockCells 0xFFFFFFFC k)) ∧
      (0x8000#16 : BitVec 16).getLsbD 15 = true ∧ (0x7FFF#16 : BitVec 16).getLsbD 15 = false ∧
      { (inMode .B 0x92#32).cpu.spsr with irq := Psr.reset }.get? Mode.irq.bits = some Psr.reset ∧
      modeValid Psr.reset.m = true ∧
      (inMode .B 0x92#32).cpu.spsr.get? Mode.irq.bits = some Psr.zero ∧ modeValid Psr.zero.m = false ∧
      (inMode .B 0x10#32).cpu.cpsr.m = Mode.usr.bits ∧ (rest .B).cpu.cpsr.m = Mode.sys.bits := by decide

theorem witness_BlockStores :
    condPassed .al (inMode .B 0x92#32).cpu.cpsr = true ∧ (13#4 : Reg) ≠ 15#4 ∧ (0xA000#16 : BitVec 16) ≠ 0#16 ∧
      (∀ k, k < 2 → (inMode .B 0x92#32).cellsAt (blockAddr 0x20#32 k) .word = some (blockCells 0x20 k)) := by decide

theorem witness_ArmBranches :
    condPassed .al (rest .A).cpu.cpsr = true ∧ (rest .A).cur = .A ∧ (14#4 : Reg) ≠ 15#4 ∧
      condPassed .al (rest .B).cpu.cpsr = true := by decide

theorem witness_StatusWordLayout : (0 < 32) ∧ (31 < 32) := by decide

theorem witness_StatusRegisterAccess :
    condPassed .al (inMode .B 0x92#32).cpu.cpsr = true ∧ (14#4 : Reg) ≠ 15#4 ∧
      (inMode .B 0x92#32).cpu.spsr.get? Mode.irq.bits = some Psr.zero ∧ (rest .B).cpu.spsr.get? Mode.sys.bits = none ∧
      (Psr.ofWord 0x10#32).t = (Psr.ofWord 0x92#32).t ∧ modeValid (Psr.ofWord 0x10#32).m = true ∧
      (Psr.ofWord 0x30#32).t ≠ (Psr.ofWord 0x92#32).t ∧ modeValid (Psr.ofWord 0#32).m = false ∧
      modeValid (inMode .B 0x92#32).cpu.cpsr.m = true := by decide

theorem witness_CoprocessorMoves :
    (inMode .A 0xD3#32).cur = .A ∧ condPassed .al (inMode .A 0xD3#32).cpu.cpsr = true ∧
      ((15#4 : Reg) = 15#4 ∧ (inMode .A 0xD3#32).cpu.cpsr.m ≠ Mode.usr.bits) ∧ (14#4 : Reg) ≠ 15#4 ∧
      ¬((14#4 : Reg) = 15#4 ∧ (inMode .A 0xD3#32).cpu.cpsr.m ≠ Mode.usr.bits) ∧
      ¬((15#4 : Reg) = 15#4 ∧ (inMode .A 0x10#32).cpu.cpsr.m ≠ Mode.usr.bits) := by decide

theorem witness_UnimplementedIsFatal :
    condPassed .al (rest .B).cpu.cpsr = true ∧ (rest .A).cur = .A ∧ (rest .A).cfg.pldPolicy = .fatal ∧
      { rest .A with cfg := { Config.standard with pldPolicy := .nop } }.cfg.pldPolicy = .nop ∧
      (Instr.bkpt .al 0#12 0#4).onlyA = true ∧ (rest .B).cur = .B := by decide

theorem test_mcr_on_B :
    arm 0x0E070F90#32 (rest .B) (fun t => t.cpu.pc == 0x1004#32 && !t.cpu.halted) = true ∧
      arm 0xEE070F90#32 (rest .B) (fun _ => true) = false := by decide

theorem witness_RefusedOperands :
    condPassed .al (rest .A).cpu.cpsr = true ∧ condPassed .al (rest .B).cpu.cpsr = true ∧
      ((!false || false) = true ∧ (15#4 : Reg) = 15#4) ∧
      ¬(MemOffset.reg 0#5 .lsl 15#4).Allowed ∧ ¬(HalfOffset.reg 15#4).Allowed ∧ (1#4 : Reg).getLsbD 0 = true ∧
      ((!true || true) = true ∧ ((13#4 : Reg) = 13#4 ∨ (13#4 : Reg) = 12#4 + 1#4)) :=
  ⟨by decide, by decide, by decide, fun h => h rfl, fun h => h rfl, by decide, by decide⟩

theorem witness_ThumbLogicAndMultiply : (rest .A).cur = .A ∧ (rest .B).cur = .B := by decide

theorem witness_ThumbHighRegistersAndAddresses : (14#4 : Reg) ≠ 15#4 ∧ (15#4 : Reg) = 15#4 := by decide

theorem witness_ThumbBlockTransfers :
    ((1#8 : BitVec 8) ≠ 0#8 ∨ false = true) ∧
      ((0#8 : BitVec 8) ≠ 0#8 ∨ true = true) ∧ (0x80#8 : BitVec 8) ≠ 0#8 ∧
      (rest .A).cur = .A ∧ (rest .B).cur = .B := by decide

theorem witness_ThumbBranches :
    condPassed .ne (rest .B).cpu.cpsr = true ∧ condPassed .eq (rest .B).cpu.cpsr = false ∧ (rest .A).cur = .A ∧
      (14#4 : Reg) ≠ 15#4 := by decide

end Sys2Proof.Tests
end

/-! PROOF. The scope's statements (00_scope.md): the invariant at reset and direct boot (O18), the condition-failed
instruction (O26), and the stops of an instruction (O7). -/

namespace Sys2Proof.Machine

/-! ### Reset and direct boot -/

/-- Memory and the event queue are empty at reset, so only the processors can break the invariant. -/
theorem inv_reset_withCpus {cpus : Pair ProcState} (h : ∀ p, (cpus.get p).Legal) :
    { State.reset with cpus := cpus }.Inv :=
  ⟨⟨.nil, nofun⟩, h, .nil, nofun⟩

theorem legal_reset (p : Proc) : (State.reset.cpus.get p).Legal := by
  cases p <;> exact ⟨rfl, rfl⟩

/-- Direct boot takes the mode, T and the pc from the seeds and from nowhere else (R422). -/
theorem legal_directBoot_iff (p : Proc) (seeds : BootSeeds) :
    (ProcState.directBoot p seeds).Legal ↔
      modeValid seeds.cpsr.m = true ∧ alignPc seeds.cpsr.t seeds.pc = seeds.pc := Iff.rfl

theorem inv_directBoot {seeds : Pair BootSeeds}
    (h : ∀ p, modeValid (seeds.get p).cpsr.m = true ∧ alignPc (seeds.get p).cpsr.t (seeds.get p).pc = (seeds.get p).pc) :
    (State.directBoot seeds).Inv :=
  inv_reset_withCpus fun
    | .A => (legal_directBoot_iff .A seeds.a).2 (h .A)
    | .B => (legal_directBoot_iff .B seeds.b).2 (h .B)

/-- A word-aligned address is left alone by the alignment of ARM state (R33). -/
theorem alignPc_arm_of_aligned {a : Word} (h : a &&& 3#32 = 0#32) : alignPc false a = a :=
  calc a &&& 0xFFFFFFFC#32
      = (a &&& 0xFFFFFFFC#32) ||| (a &&& 3#32) := by rw [h, BitVec.or_zero]
    _ = a &&& (0xFFFFFFFC#32 ||| 3#32) := (BitVec.and_or_distrib_left ..).symm
    _ = a := BitVec.and_allOnes

/-- Settles O18: the reset state with other processors is as good as these are, and direct boot's are as the seeds. -/
theorem invariantAtReset : Obligations.InvariantAtReset := by
  refine ⟨inv_reset_withCpus legal_reset, fun seeds => inv_directBoot, fun a b ha hb => inv_directBoot fun p => ?_⟩
  cases p with
  | A => exact ⟨rfl, alignPc_arm_of_aligned ha⟩
  | B => exact ⟨rfl, alignPc_arm_of_aligned hb⟩

/-! ### A condition-failed instruction -/

theorem onlyIfA_of_A {s : State} (h : s.cur = .A) (f : State → Result) : onlyIfA s f = f s := by
  simp only [onlyIfA, h]

theorem ifPassed_of_failed {c : Cond} {s : State} (h : condPassed c s.cpu.cpsr = false) (f : State → Result) :
    ifPassed c s f = .next s.advanceArm := by
  simp only [ifPassed, h, Bool.false_eq_true, if_false]

theorem onlyIfA_ifPassed_of_failed {c : Cond} {s : State} (hA : s.cur = .A) (h : condPassed c s.cpu.cpsr = false)
    (f : State → Result) : onlyIfA s (fun s => ifPassed c s f) = .next s.advanceArm := by
  rw [onlyIfA_of_A hA, ifPassed_of_failed h]

/-- Every conditional meaning begins with the test of its condition, behind the test of the processor where only A has the
instruction (R125, R130, R131). -/
theorem exec_of_failed {i : Instr} {c : Cond} {s : State} (hc : i.condition = some c)
    (h : condPassed c s.cpu.cpsr = false) (hA : i.onlyA = true → s.cur = .A) : exec i s = .next s.advanceArm := by
  cases i with
  | blxReg | clz | qadd | qsub | qdadd | qdsub | bkpt | smlaXy | smlawY | smulwY | smlalXy | smulXy | ldrd | strd =>
    cases hc
    unfold exec
    exact onlyIfA_ifPassed_of_failed (hA rfl) h _
  | _ => cases hc <;> unfold exec <;> exact ifPassed_of_failed h _

/-- Settles O26: to advance to the next ARM instruction is to put the pc on by 4. -/
theorem conditionFailed : Obligations.ConditionFailed := fun _ _ _ hc h hA => exec_of_failed hc h hA

/-! ### Where a stop stands

A stop names the raw word and the pc of the state in which it is raised. Most are raised in the state the instruction
began in; a status-restore-and-jump is raised after an internal cycle or a block load, which leave both as they were. -/

/-- The same raw word and the same pc. -/
structure SameSite (s t : State) : Prop where
  ir : t.ir = s.ir
  pc : t.cpu.pc = s.cpu.pc

theorem SameSite.refl (s : State) : SameSite s s := ⟨rfl, rfl⟩

theorem SameSite.trans {s t u : State} (h : SameSite s t) (k : SameSite t u) : SameSite s u :=
  ⟨k.ir.trans h.ir, k.pc.trans h.pc⟩

theorem sameSite_withCpu (s : State) (f : ProcState → ProcState) (h : (f s.cpu).pc = s.cpu.pc) :
    SameSite s (s.withCpu f) :=
  ⟨rfl, by rw [State.withCpu_cpu, h]⟩

theorem sameSite_charge (s : State) (n : Nat) : SameSite s (s.charge n) := sameSite_withCpu s _ rfl

theorem sameSite_setGpr (s : State) (i : Reg) (v : Word) : SameSite s (s.setGpr i v) := sameSite_withCpu s _ rfl

theorem sameSite_ask (s : State) (q : Request) : SameSite s (s.ask q).s :=
  ⟨State.ask_ir s q, by simp [State.cpu]⟩

theorem sameSite_applyCall (s : State) (src : CallSource) (c : Call) : SameSite s (s.applyCall src c) := by
  cases c with
  | requestInterrupt p n =>
    simp only [State.applyCall, State.requestInterrupt]
    split <;> exact ⟨rfl, rfl⟩
  | setWaitstate p r k c =>
    simp only [State.applyCall]
    split <;> exact ⟨rfl, rfl⟩
  | writeCell cell v =>
    simp only [State.applyCall]
    split <;> exact ⟨rfl, rfl⟩
  | halt =>
    simp only [State.applyCall]
    split
    · exact sameSite_withCpu s _ rfl
    · exact .refl s
  | _ => exact ⟨rfl, rfl⟩

theorem sameSite_applyCalls (s : State) (src : CallSource) (cs : List Call) : SameSite s (s.applyCalls src cs) := by
  induction cs generalizing s with
  | nil => exact .refl s
  | cons c cs ih => exact (sameSite_applyCall s src c).trans (ih _)

theorem sameSite_busRead (s : State) (a : Word) (w : Width) : SameSite s (s.busRead a w).s := by
  unfold State.busRead
  split
  · exact .refl s
  · exact (sameSite_ask s _).trans (sameSite_applyCalls _ _ _)

theorem sameSite_memRead (s : State) (a : Word) (w : Width) (seq : Bool) : SameSite s (s.memRead a w seq).s :=
  (sameSite_withCpu s _ rfl).trans (sameSite_busRead _ _ w)

theorem sameSite_readBlock (s : State) (seq : Bool) (ps : List (Reg × Word)) : SameSite s (s.readBlock seq ps).s := by
  induction ps generalizing s seq with
  | nil => exact .refl s
  | cons x rest ih => exact (sameSite_memRead s x.2 .word seq).trans (ih _ true)

theorem sameSite_writeRegs (s : State) (m : BitVec 5) (vs : List (Reg × Word)) :
    SameSite s (s.withCpu (·.writeRegs m vs)) := sameSite_withCpu s _ (ProcState.writeRegs_pc _ m vs)

theorem sameSite_loadBlock (s : State) (m : BitVec 5) (p u w : Bool) (rn : Reg) (regs : List Reg) :
    SameSite s (s.loadBlock m p u w rn regs).s := by
  simp only [State.loadBlock]
  refine SameSite.trans ?_ (sameSite_charge _ 1)
  split
  · exact ((sameSite_readBlock ..).trans (sameSite_writeRegs ..)).trans (sameSite_setGpr ..)
  · exact (sameSite_readBlock ..).trans (sameSite_writeRegs ..)

/-! ### Stops, shape by shape -/

/-- What a meaning answers at s: a next state, or one of the two Fatal kinds with s's raw word and pc (R16, R19, R395). -/
def StopsAt (s : State) : Result → Prop
  | .next _ => True
  | .fault f => f = .unsupported s.ir s.cpu.pc ∨ f = .invalidState s.ir s.cpu.pc
  | .refused _ => False

theorem stopsAt_fatal (s : State) : StopsAt s (fatal s) := .inl rfl

theorem stopsAt_inconsistent (s : State) : StopsAt s (inconsistent s) := .inr rfl

theorem StopsAt.of_sameSite {s t : State} {r : Result} (k : StopsAt t r) (h : SameSite s t) : StopsAt s r := by
  cases r with
  | next u => trivial
  | fault f => simpa only [StopsAt, h.ir, h.pc] using k
  | refused e => exact k

theorem stopsAt_ite {c : Prop} [Decidable c] {s : State} {r r' : Result} (h : StopsAt s r) (h' : StopsAt s r') :
    StopsAt s (if c then r else r') := by
  split
  · exact h
  · exact h'

/-- The shape of a refused operand (the Exceptions lines of files 41 to 46). -/
theorem stopsAt_unless {c : Prop} [Decidable c] {s : State} {r : Result} (h : StopsAt s r) :
    StopsAt s (if c then fatal s else r) := stopsAt_ite (stopsAt_fatal s) h

theorem stopsAt_ifPassed {c : Cond} {s : State} {f : State → Result} (h : StopsAt s (f s)) :
    StopsAt s (ifPassed c s f) := stopsAt_ite h trivial

theorem stopsAt_onlyIfA {s : State} {f : State → Result} (h : StopsAt s (f s)) : StopsAt s (onlyIfA s f) := by
  unfold onlyIfA
  split
  · exact h
  · exact stopsAt_fatal s

theorem stopsAt_statusRestoreJump (s : State) (r : Word) : StopsAt s (s.statusRestoreJump r) := by
  unfold State.statusRestoreJump
  split
  · exact stopsAt_inconsistent s
  · exact stopsAt_ite trivial (stopsAt_inconsistent s)

theorem stopsAt_finishDp (op : AluOp) (sf : Bool) (rd : Reg) (a : Word) (b : Shifted) (s : State) :
    StopsAt s (finishDp op sf rd a b s) :=
  stopsAt_ite trivial (stopsAt_ite (stopsAt_ite (stopsAt_statusRestoreJump s _) trivial) trivial)

theorem stopsAt_dpRsr (op : AluOp) (sf : Bool) (rn rd rs : Reg) (ty : ShiftType) (rm : Reg) (s : State) :
    StopsAt s (dpRsr op sf rn rd rs ty rm s) :=
  stopsAt_unless ((stopsAt_finishDp ..).of_sameSite (sameSite_charge s 1))

theorem stopsAt_transfer {p u w : Bool} {rn : Reg} {off : Word} {s : State} {f : Transfer → State → Result}
    (h : ∀ x, StopsAt s (f x s)) : StopsAt s (transfer p u w rn off s f) := stopsAt_unless (h _)

theorem stopsAt_transferReg {p u w : Bool} {rn rm : Reg} {sh : BitVec 5} {ty : ShiftType} {s : State}
    {f : Transfer → State → Result} (h : ∀ x, StopsAt s (f x s)) : StopsAt s (transferReg p u w rn sh ty rm s f) :=
  stopsAt_unless (stopsAt_transfer h)

theorem stopsAt_transferHalf {p u w : Bool} {rn : Reg} {off : HalfOffset} {s : State} {f : Transfer → State → Result}
    (h : ∀ x, StopsAt s (f x s)) : StopsAt s (transferHalf p u w rn off s f) := by
  cases off with
  | imm v => exact stopsAt_transfer h
  | reg rm => exact stopsAt_unless (stopsAt_transfer h)

theorem stopsAt_msrCpsr (mask : BitVec 4) (v : Word) (s : State) : StopsAt s (msrCpsr mask v s) :=
  stopsAt_unless (stopsAt_ite trivial (stopsAt_inconsistent s))

theorem stopsAt_msrSpsr (mask : BitVec 4) (v : Word) (s : State) : StopsAt s (msrSpsr mask v s) := by
  unfold msrSpsr
  split
  · exact stopsAt_inconsistent s
  · trivial

theorem stopsAt_execMrs (c : Cond) (r : Bool) (rd : Reg) (s : State) : StopsAt s (execMrs c r rd s) := by
  refine stopsAt_ifPassed (stopsAt_unless (stopsAt_ite ?_ trivial))
  split
  · exact stopsAt_inconsistent s
  · trivial

theorem stopsAt_execLdm (c : Cond) (p u w : Bool) (rn : Reg) (list : BitVec 16) (s : State) :
    StopsAt s (execLdm c p u w rn list s) := by
  refine stopsAt_ifPassed (stopsAt_unless ?_)
  dsimp only
  split <;> trivial

theorem stopsAt_execLdmS (c : Cond) (p u w : Bool) (rn : Reg) (list : BitVec 16) (s : State) :
    StopsAt s (execLdmS c p u w rn list s) := by
  refine stopsAt_ifPassed (stopsAt_unless ?_)
  dsimp only
  split
  · exact (stopsAt_statusRestoreJump _ _).of_sameSite (sameSite_loadBlock ..)
  · trivial

theorem stopsAt_execTPop (r : Bool) (rlist : BitVec 8) (s : State) : StopsAt s (execTPop r rlist s) := by
  refine stopsAt_unless ?_
  dsimp only
  split <;> trivial

theorem stopsAt_execPld (i u : Bool) (rn : Reg) (off12 : BitVec 12) (s : State) :
    StopsAt s (execPld i u rn off12 s) := by
  refine stopsAt_onlyIfA ?_
  split
  · exact stopsAt_fatal s
  · trivial

/-! ### All instructions -/

/-- Every instruction goes on, or stops in one of the two Fatal kinds at itself. The Thumb instructions that are not named
below refuse nothing. -/
theorem exec_stopsAt (i : Instr) (s : State) : StopsAt s (exec i s) := by
  cases i with
  | andImm | eorImm | subImm | rsbImm | addImm | adcImm | sbcImm | rscImm | tstImm | teqImm | cmpImm | cmnImm | orrImm
  | movImm | bicImm | mvnImm | andRsi | eorRsi | subRsi | rsbRsi | addRsi | adcRsi | sbcRsi | rscRsi | tstRsi | teqRsi
  | cmpRsi | cmnRsi | orrRsi | movRsi | bicRsi | mvnRsi =>
    unfold exec
    exact stopsAt_ifPassed (stopsAt_finishDp ..)
  | andRsr | eorRsr | subRsr | rsbRsr | addRsr | adcRsr | sbcRsr | rscRsr | tstRsr | teqRsr | cmpRsr | cmnRsr | orrRsr
  | movRsr | bicRsr | mvnRsr =>
    unfold exec
    exact stopsAt_ifPassed (stopsAt_dpRsr ..)
  | mrs => exact stopsAt_execMrs ..
  | msrRegCpsr =>
    unfold exec
    exact stopsAt_ifPassed (stopsAt_unless (stopsAt_msrCpsr ..))
  | msrRegSpsr =>
    unfold exec
    exact stopsAt_ifPassed (stopsAt_unless (stopsAt_msrSpsr ..))
  | msrImm =>
    unfold exec
    exact stopsAt_ifPassed (stopsAt_ite (stopsAt_msrSpsr ..) (stopsAt_msrCpsr ..))
  | bx | b | bl | swi =>
    unfold exec
    exact stopsAt_ifPassed trivial
  | mul | mla | umull | umlal | smull | smlal | swp | swpb | stm | stmS =>
    unfold exec
    exact stopsAt_ifPassed (stopsAt_unless trivial)
  | blxReg | clz | qadd | qsub | qdadd | qdsub | smlaXy | smlawY | smulwY | smlalXy | smulXy =>
    unfold exec
    exact stopsAt_onlyIfA (stopsAt_ifPassed (stopsAt_unless trivial))
  | bkpt =>
    unfold exec
    exact stopsAt_onlyIfA (stopsAt_ifPassed (stopsAt_fatal s))
  | cdp | mcrrMrrc | ldcStc =>
    unfold exec
    exact stopsAt_ifPassed (stopsAt_fatal s)
  | mcr | mrc =>
    unfold exec
    exact stopsAt_ifPassed (stopsAt_ite trivial (stopsAt_fatal s))
  | ldrImm | ldrtImm =>
    unfold exec
    exact stopsAt_ifPassed (stopsAt_transfer fun _ => stopsAt_ite trivial trivial)
  | strImm | strtImm =>
    unfold exec
    exact stopsAt_ifPassed (stopsAt_transfer fun _ => trivial)
  | ldrbImm | ldrbtImm | strbImm | strbtImm =>
    unfold exec
    exact stopsAt_ifPassed (stopsAt_transfer fun _ => stopsAt_unless trivial)
  | ldrReg | ldrtReg =>
    unfold exec
    exact stopsAt_ifPassed (stopsAt_transferReg fun _ => stopsAt_ite trivial trivial)
  | strReg | strtReg =>
    unfold exec
    exact stopsAt_ifPassed (stopsAt_transferReg fun _ => trivial)
  | ldrbReg | ldrbtReg | strbReg | strbtReg =>
    unfold exec
    exact stopsAt_ifPassed (stopsAt_transferReg fun _ => stopsAt_unless trivial)
  | ldrh | ldrsb | ldrsh | strh =>
    unfold exec
    exact stopsAt_ifPassed (stopsAt_transferHalf fun _ => stopsAt_unless trivial)
  | ldrd | strd =>
    unfold exec
    exact stopsAt_onlyIfA (stopsAt_ifPassed (stopsAt_transferHalf fun _ => stopsAt_unless trivial))
  | ldm => exact stopsAt_execLdm ..
  | ldmS => exact stopsAt_execLdmS ..
  | pld i u rn off12 => exact stopsAt_execPld i u rn off12 s
  | blxImm | tBlxSuffix =>
    unfold exec
    exact stopsAt_onlyIfA trivial
  | tBlxReg =>
    unfold exec
    exact stopsAt_onlyIfA (stopsAt_unless trivial)
  | tAddHi | tMovHi | tBcond =>
    unfold exec
    exact stopsAt_ite trivial trivial
  | tPush | tStmia | tLdmia =>
    unfold exec
    exact stopsAt_unless trivial
  | tPop => exact stopsAt_execTPop ..
  | tBkpt => exact stopsAt_fatal s
  | _ => trivial

/-- Settles O7: an answer that stops at its own instruction is no other fault and no refusal. -/
theorem stopsNameTheInstruction : Obligations.StopsNameTheInstruction := by
  intro i s
  have h := exec_stopsAt i s
  refine ⟨fun f hf => ?_, fun r hr => ?_⟩
  · rw [hf] at h
    exact h
  · rw [hr] at h
    exact h

end Sys2Proof.Machine

/-! PROOF. What an instruction can do, said once (R402): it works, on its destinations, on the flags it names and on the
bus, and then leaves, by the next instruction, a jump, an exchange, a status restore, an MSR or a software interrupt. Every
statement about what instructions leave unchanged (O17, O21 to O25) is read off from this. -/

namespace Sys2Proof.Machine

/-! ### Memory and the collaborators -/

/-- Memory need not be canonical for a write to leave the other cells alone. -/
theorem Memory.get_set_other (m : Memory) {a b : Nat} (v : Byte) (h : b ≠ a) : (m.set a v).get b = m.get b := by
  induction m with
  | nil =>
    simp only [Memory.set]
    split
    · rfl
    · simp [Memory.get, h.symm]
  | cons x rest ih =>
    obtain ⟨k, w⟩ := x
    simp only [Memory.set]
    split
    · simp only [Memory.get, ih]
    · split
      · next hk => subst hk; split <;> simp [Memory.get, h.symm]
      · split <;> simp [Memory.get, h.symm]

theorem Memory.get_writeCells_other (m : Memory) (cs : List Nat) (bs : List Byte) {a : Nat} (ha : a ∉ cs) :
    (m.writeCells cs bs).get a = m.get a := by
  induction cs generalizing m bs with
  | nil => cases bs <;> rfl
  | cons c cs ih =>
    cases bs with
    | nil => rfl
    | cons b bs =>
      rw [List.mem_cons, not_or] at ha
      rw [Memory.writeCells, ih _ _ ha.2, Memory.get_set_other m b ha.1]

theorem State.ask_outbox (s : State) (q : Request) : (s.ask q).s.outbox = q :: s.outbox := by
  unfold State.ask; split <;> rfl

theorem State.applyCall_outbox (s : State) (src : CallSource) (c : Call) : (s.applyCall src c).outbox = s.outbox := by
  cases c with
  | requestInterrupt | setWaitstate | writeCell | halt =>
    simp only [State.applyCall, State.requestInterrupt]
    split <;> rfl
  | _ => rfl

theorem State.applyCalls_outbox (s : State) (src : CallSource) (cs : List Call) :
    (s.applyCalls src cs).outbox = s.outbox := by
  induction cs generalizing s with
  | nil => rfl
  | cons c cs ih => exact (ih _).trans (State.applyCall_outbox s src c)

theorem State.applyHostWrites_outbox (s : State) (hs : List HostWrite) : (s.applyHostWrites hs).outbox = s.outbox := by
  induction hs generalizing s with
  | nil => rfl
  | cons h hs ih =>
    refine (ih _).trans ?_
    cases h with
    | setReg =>
      simp only [State.applyHostWrite]
      split <;> rfl
    | _ => rfl

/-- Outside the answer to a store a collaborator reaches no processor (R391, R407). -/
theorem State.applyCalls_cpus {src : CallSource} (h : src ≠ .write) (s : State) (cs : List Call) :
    (s.applyCalls src cs).cpus = s.cpus := by
  induction cs generalizing s with
  | nil => rfl
  | cons c cs ih =>
    refine (ih _).trans ?_
    cases c with
    | halt => simp only [State.applyCall, h, if_false]
    | requestInterrupt | setWaitstate | writeCell =>
      simp only [State.applyCall, State.requestInterrupt]
      split <;> rfl
    | _ => rfl

/-! ### Registers, status words and pc of the running processor -/

/-- The running processor's registers, status words and pc are the same: what no bus access and no call touches. -/
structure SameRegs (p q : ProcState) : Prop where
  phys : q.phys = p.phys
  cpsr : q.cpsr = p.cpsr
  spsr : q.spsr = p.spsr
  pc : q.pc = p.pc

theorem SameRegs.refl (p : ProcState) : SameRegs p p := ⟨rfl, rfl, rfl, rfl⟩

theorem SameRegs.trans {p q r : ProcState} (h : SameRegs p q) (k : SameRegs q r) : SameRegs p r :=
  ⟨k.phys.trans h.phys, k.cpsr.trans h.cpsr, k.spsr.trans h.spsr, k.pc.trans h.pc⟩

theorem sameRegs_withCpu (s : State) {f : ProcState → ProcState} (h : SameRegs s.cpu (f s.cpu)) :
    SameRegs s.cpu (s.withCpu f).cpu := by
  rw [State.withCpu_cpu]; exact h

theorem sameRegs_ask (s : State) (q : Request) : SameRegs s.cpu (s.ask q).s.cpu := by
  simp only [State.cpu, State.ask_cpus, State.ask_cur]; exact .refl _

theorem sameRegs_applyCall (s : State) (src : CallSource) (c : Call) : SameRegs s.cpu (s.applyCall src c).cpu := by
  cases c with
  | halt =>
    simp only [State.applyCall]
    split
    · exact sameRegs_withCpu s ⟨rfl, rfl, rfl, rfl⟩
    · exact .refl _
  | requestInterrupt | setWaitstate | writeCell =>
    simp only [State.applyCall, State.requestInterrupt, State.setWaitstate]
    split <;> exact .refl _
  | _ => exact .refl _

theorem sameRegs_applyCalls (s : State) (src : CallSource) (cs : List Call) :
    SameRegs s.cpu (s.applyCalls src cs).cpu := by
  induction cs generalizing s with
  | nil => exact .refl _
  | cons c cs ih => exact (sameRegs_applyCall s src c).trans (ih _)

theorem sameRegs_asked (s : State) (q : Request) (src : CallSource) :
    SameRegs s.cpu ((s.ask q).s.applyCalls src (s.ask q).reply.calls).cpu :=
  (sameRegs_ask s q).trans (sameRegs_applyCalls _ _ _)

theorem sameRegs_account (s : State) (a : Word) (w : Width) (seq : Bool) : SameRegs s.cpu (s.account a w seq).cpu :=
  sameRegs_withCpu s ⟨rfl, rfl, rfl, rfl⟩

theorem sameRegs_memRead (s : State) (a : Word) (w : Width) (seq : Bool) : SameRegs s.cpu (s.memRead a w seq).s.cpu := by
  refine (sameRegs_account s (w.align a) w seq).trans ?_
  unfold State.memRead State.busRead
  split
  · exact .refl _
  · exact sameRegs_asked _ _ _

/-! ### Work -/

/-- r is one of the places instruction i, begun in s, may write, in the mode of s. -/
def Dest (i : Instr) (s : State) (r : Reg) : Prop := bank s.cpu.cpsr.m r ∈ i.places s

/-- p is the running processor of s after some work of instruction i: only i's places, the flags i names and the SPSR of an
MSR are written. -/
structure Work (i : Instr) (s : State) (p : ProcState) : Prop where
  pc : p.pc = s.cpu.pc
  t : p.cpsr.t = s.cpu.cpsr.t
  mode : p.cpsr.m = s.cpu.cpsr.m
  masks : p.cpsr.i = s.cpu.cpsr.i ∧ p.cpsr.f = s.cpu.cpsr.f
  sticky : s.cpu.cpsr.q = true → p.cpsr.q = true
  q : i.setsQ = false → p.cpsr.q = s.cpu.cpsr.q
  flags : i.writesFlags = false → p.cpsr.flags = s.cpu.cpsr.flags
  phys : ∀ k, k ∉ i.places s → p.phys.get k = s.cpu.phys.get k
  spsr : i.writesSpsr = false → p.spsr = s.cpu.spsr
  spsrs : ∀ m, m ≠ s.cpu.cpsr.m → p.spsr.get? m = s.cpu.spsr.get? m

section
variable {i : Instr} {s : State} {p : ProcState}

theorem Work.start : Work i s s.cpu := by constructor <;> simp

theorem Work.of_sameRegs {q : ProcState} (h : Work i s p) (k : SameRegs p q) : Work i s q := by
  obtain ⟨hphys, hcpsr, hspsr, hpc⟩ := k
  constructor <;> simp only [hphys, hcpsr, hspsr, hpc]
  exacts [h.pc, h.t, h.mode, h.masks, h.sticky, h.q, h.flags, h.phys, h.spsr, h.spsrs]

theorem SpsrBank.get?_put_of_ne (b : SpsrBank) {m m' : BitVec 5} (v : Psr) (h : m' ≠ m) :
    (b.put m v).get? m' = b.get? m' := by
  unfold SpsrBank.put
  repeat' split
  all_goals (subst_vars; simp [SpsrBank.get?, h])

theorem ProcState.setBankReg_phys_of_ne {m : BitVec 5} {r : Reg} {v : Word} {k : Fin 31} (h : k ≠ bank m r) :
    (p.setBankReg m r v).phys.get k = p.phys.get k := by
  simp only [ProcState.setBankReg, Vector.get_eq_getElem, Vector.getElem_set]
  exact if_neg fun e => h (Fin.ext e.symm)

theorem Work.setBankReg (h : Work i s p) {m : BitVec 5} {r : Reg} (v : Word) (hr : bank m r ∈ i.places s) :
    Work i s (p.setBankReg m r v) :=
  { h with phys := fun k hk => (ProcState.setBankReg_phys_of_ne fun e : k = _ => hk (e ▸ hr)).trans (h.phys k hk) }

theorem Work.setGpr (h : Work i s p) {r : Reg} (v : Word) (hr : Dest i s r) : Work i s (p.setGpr r v) :=
  h.setBankReg v (h.mode ▸ hr)

theorem Work.setFlags (h : Work i s p) (f : Flags) (hi : i.writesFlags = true) : Work i s (p.setFlags f) :=
  { h with flags := fun hn => by simp [hi] at hn }

theorem Work.setFlagsIf (h : Work i s p) {sf : Bool} (f : Flags) (hi : sf = true → i.writesFlags = true) :
    Work i s (p.setFlagsIf sf f) := by
  cases sf with
  | false => exact h
  | true => exact h.setFlags f (hi rfl)

theorem Work.stickQ (h : Work i s p) (sat : Bool) (hi : i.setsQ = true) : Work i s (p.stickQ sat) :=
  { h with
    sticky := fun hq => by simp [h.sticky hq]
    q := fun hn => by simp [hi] at hn }

theorem Work.charge (h : Work i s p) (n : Nat) : Work i s (p.charge n) := { h with }

theorem Work.putSpsr (h : Work i s p) (v : Psr) (hi : i.writesSpsr = true) :
    Work i s { p with spsr := p.spsr.put p.cpsr.m v } :=
  { h with
    spsr := fun hn => by simp [hi] at hn
    spsrs := fun m hm => (SpsrBank.get?_put_of_ne _ v (h.mode ▸ hm)).trans (h.spsrs m hm) }

theorem Work.writeRegs (h : Work i s p) (m : BitVec 5) (vs : List (Reg × Word))
    (hv : ∀ x ∈ vs, x.1 ≠ 15#4 → bank m x.1 ∈ i.places s) : Work i s (p.writeRegs m vs) := by
  induction vs generalizing p with
  | nil => exact h
  | cons x rest ih =>
    have hrest := fun y hy => hv y (List.mem_cons_of_mem x hy)
    simp only [ProcState.writeRegs]
    split
    · exact ih h hrest
    · next hx => exact ih (h.setBankReg x.2 (hv x List.mem_cons_self hx)) hrest

end

/-- What is left alone outside the processors, but for the cells that instruction i stores to. -/
structure World (i : Instr) (s u : State) : Prop where
  mem : ∀ c, c ∉ i.storedCells s → u.mem.get c = s.mem.get c
  maps : u.maps = s.maps
  waits : u.waits = s.waits
  irqs : u.irqs = s.irqs
  events : u.events = s.events
  nextSeq : u.nextSeq = s.nextSeq
  inbox : u.inbox = s.inbox
  ir : u.ir = s.ir
  halted : u.cpu.halted = s.cpu.halted

/-- u is reached from s by some work of instruction i. The outbox grows with every request to a collaborator; as long as there
was none, the world is as it was. -/
structure Working (i : Instr) (s u : State) : Prop where
  work : Work i s u.cpu
  cur : u.cur = s.cur
  asked : s.outbox.length ≤ u.outbox.length
  world : u.outbox.length = s.outbox.length → World i s u

section
variable {i : Instr} {s u : State}

theorem World.start : World i s s := by constructor <;> simp

theorem Working.start : Working i s s := ⟨.start, rfl, le_refl _, fun _ => .start⟩

theorem World.withCpu {f : ProcState → ProcState} (h : World i s u) (hf : (f u.cpu).halted = u.cpu.halted) :
    World i s (u.withCpu f) :=
  { h with halted := by rw [State.withCpu_cpu, hf, h.halted] }

theorem Working.withCpu {f : ProcState → ProcState} (h : Working i s u) (hw : Work i s (f u.cpu))
    (hf : (f u.cpu).halted = u.cpu.halted) : Working i s (u.withCpu f) :=
  { h with
    work := by rw [State.withCpu_cpu]; exact hw
    world := fun e => (h.world e).withCpu hf }

theorem Working.setGpr (h : Working i s u) {r : Reg} (v : Word) (hr : Dest i s r) : Working i s (u.setGpr r v) :=
  h.withCpu (h.work.setGpr v hr) rfl

theorem Working.charge (h : Working i s u) (n : Nat) : Working i s (u.charge n) := h.withCpu (h.work.charge n) rfl

/-- Asking a collaborator ends what is known of the world. -/
theorem Working.ask (h : Working i s u) (q : Request) (src : CallSource) :
    Working i s ((u.ask q).s.applyCalls src (u.ask q).reply.calls) ∧
      s.outbox.length < ((u.ask q).s.applyCalls src (u.ask q).reply.calls).outbox.length := by
  have more : s.outbox.length < ((u.ask q).s.applyCalls src (u.ask q).reply.calls).outbox.length := by
    rw [State.applyCalls_outbox, State.ask_outbox, List.length_cons]
    exact Nat.lt_succ_of_le h.asked
  refine ⟨⟨h.work.of_sameRegs (sameRegs_asked u q src), ?_, more.le, fun e => absurd e more.ne'⟩, more⟩
  rw [(keeps_applyCalls _ _ _).cur, State.ask_cur, h.cur]

theorem Working.account (h : Working i s u) (a : Word) (w : Width) (seq : Bool) : Working i s (u.account a w seq) :=
  h.withCpu (h.work.of_sameRegs ⟨rfl, rfl, rfl, rfl⟩) rfl

theorem Working.memRead (h : Working i s u) (a : Word) (w : Width) (seq : Bool) : Working i s (u.memRead a w seq).s := by
  have h1 := h.account (w.align a) w seq
  unfold State.memRead State.busRead
  split
  · exact h1
  · exact (h1.ask _ _).1

/-- A store to one of the addresses of the instruction's rule: in a world left alone it meets the cells it would have met at
the start. -/
theorem Working.memWrite (h : Working i s u) {a : Word} {w : Width} (v : Word) (seq : Bool) (ha : (a, w) ∈ i.stores s) :
    Working i s (u.memWrite a w v seq) := by
  have h1 := h.account (w.align a) w seq
  unfold State.memWrite State.busWrite
  split
  · next cells hc =>
    refine { h1 with work := h1.work, world := fun e => ?_ }
    have hw := h1.world e
    refine { hw with
      mem := fun c hn => (Memory.get_writeCells_other _ _ _ fun hm => hn ?_).trans (hw.mem c hn)
      halted := hw.halted }
    rw [hw.maps, h1.cur] at hc
    exact List.mem_flatMap.2 ⟨(a, w), ha, by rw [State.cellsAt, hc]; exact hm⟩
  · exact (h1.ask _ _).1

theorem Working.load (h : Working i s u) (a : Word) (w : Width) : Working i s (u.load a w).s := h.memRead a w _

theorem Working.store (h : Working i s u) {a : Word} {w : Width} (v : Word) (ha : (a, w) ∈ i.stores s) :
    Working i s (u.store a w v) := h.memWrite v _ ha

theorem Working.spendCarry (h : Working i s u) (sf : Bool) : Working i s (u.spendCarry sf) := by
  unfold State.spendCarry
  split
  · exact { h with work := h.work, world := fun e => { h.world e with halted := (h.world e).halted } }
  · exact h

theorem Working.loadWordRotated (h : Working i s u) (a : Word) : Working i s (u.loadWordRotated a).s := h.load a .word

theorem Working.loadByte (h : Working i s u) (a : Word) : Working i s (u.loadByte a).s := h.load a .byte

theorem Working.loadSignedByte (h : Working i s u) (a : Word) : Working i s (u.loadSignedByte a).s := h.load a .byte

theorem Working.loadHalf (h : Working i s u) (a : Word) : Working i s (u.loadHalf a).s := by
  unfold State.loadHalf
  split <;> exact h.load a .half

theorem Working.loadSignedHalf (h : Working i s u) (a : Word) : Working i s (u.loadSignedHalf a).s := by
  unfold State.loadSignedHalf
  split
  · exact h.loadSignedByte a
  · exact h.load a .half

theorem Working.readBlock (h : Working i s u) (seq : Bool) (ps : List (Reg × Word)) :
    Working i s (u.readBlock seq ps).s := by
  induction ps generalizing u seq with
  | nil => exact h
  | cons x rest ih => exact ih (h.memRead x.2 .word seq) true

theorem Working.writeBlock (h : Working i s u) (val : Reg → Word) (seq : Bool) (ps : List (Reg × Word))
    (hp : ∀ x ∈ ps, (x.2, Width.word) ∈ i.stores s) : Working i s (u.writeBlock val seq ps) := by
  induction ps generalizing u seq with
  | nil => exact h
  | cons x rest ih =>
    exact ih (h.memWrite (val x.1) seq (hp x List.mem_cons_self)) true fun y hy => hp y (List.mem_cons_of_mem x hy)

end

end Sys2Proof.Machine

namespace Sys2Proof.Machine

/-! ### Blocks -/

theorem blockAddr_zero (a : Word) : blockAddr a 0 = a := BitVec.add_zero a

theorem blockAddr_succ (a : Word) (k : Nat) : blockAddr a (k + 1) = blockAddr (a + 4#32) k := by
  simp only [blockAddr, Nat.mul_add, Nat.mul_one, BitVec.ofNat_add]
  ac_rfl

/-- The registers of a block stand at its words, in order (R235). -/
theorem placed_eq_map (regs : List Reg) (a : Word) :
    placed regs a = (List.range regs.length).map fun k => (regs.getD k 0#4, blockAddr a k) := by
  induction regs generalizing a with
  | nil => rfl
  | cons r rest ih =>
    simp only [placed, ih, List.length_cons, List.range_succ_eq_map, List.map_cons, List.map_map, blockAddr_zero,
      List.getD_cons_zero]
    congr 2
    funext k
    simp [blockAddr_succ]

theorem busOrder_placed (u : Bool) (regs : List Reg) (a : Word) :
    busOrder u (placed regs a) = (blockOrder u regs.length).map fun k => (regs.getD k 0#4, blockAddr a k) := by
  rw [placed_eq_map]
  cases u
  · exact List.map_reverse.symm
  · rfl

theorem mem_blockOrder {u : Bool} {n k : Nat} : k ∈ blockOrder u n ↔ k < n := by
  cases u <;> simp [blockOrder]

theorem blockLowest_eq (p u : Bool) (base : Word) (regs : List Reg) :
    blockLowest p u base (blockSize regs) = lowestAddr p u base regs.length := by
  cases p <;> cases u <;> rfl

theorem mem_regs_of_mem_busOrder {u : Bool} {regs : List Reg} {a : Word} {x : Reg × Word}
    (hx : x ∈ busOrder u (placed regs a)) : x.1 ∈ regs := by
  rw [busOrder_placed, List.mem_map] at hx
  obtain ⟨k, hk, rfl⟩ := hx
  rw [mem_blockOrder] at hk
  rw [List.getD_eq_getElem _ _ hk]
  exact List.getElem_mem hk

theorem State.readBlock_fst (s : State) (seq : Bool) (ps : List (Reg × Word)) :
    (s.readBlock seq ps).values.map Prod.fst = ps.map Prod.fst := by
  induction ps generalizing s seq with
  | nil => rfl
  | cons x rest ih => simp only [State.readBlock, List.map_cons, ih]

theorem mem_regsOf {list : BitVec 16} {r : Reg} : r ∈ regsOf list ↔ list.getLsbD r.toNat = true := by
  have hall : r ∈ allRegs := by revert r; decide
  simp [regsOf, hall]

/-- The words of a block store are at the addresses its rule computes. -/
theorem mem_blockAddrs_of_mem_busOrder {s : State} {p u : Bool} {rn : Reg} {list : BitVec 16} {x : Reg × Word}
    (hx : x ∈ busOrder u (placed (regsOf list) (blockLowest p u (s.cpu.gpr rn) (blockSize (regsOf list))))) :
    (x.2, Width.word) ∈ s.blockAddrs p u rn list := by
  rw [busOrder_placed, List.mem_map] at hx
  obtain ⟨k, hk, rfl⟩ := hx
  rw [mem_blockOrder] at hk
  exact List.mem_map.2 ⟨k, List.mem_range.2 hk, by rw [blockLowest_eq]⟩

theorem ProcState.writeRegs_halted (p : ProcState) (m : BitVec 5) (vs : List (Reg × Word)) :
    (p.writeRegs m vs).halted = p.halted := by
  induction vs generalizing p with
  | nil => rfl
  | cons x rest ih => simp only [ProcState.writeRegs]; rw [ih]; split <;> rfl

section
variable {i : Instr} {s : State}

theorem Working.loadBlock {m : BitVec 5} {p u w : Bool} {rn : Reg} {regs : List Reg}
    (hregs : ∀ r ∈ regs, r ≠ 15#4 → bank m r ∈ i.places s) (hbase : w = true → Dest i s rn) :
    Working i s (s.loadBlock m p u w rn regs).s := by
  unfold State.loadBlock
  have h := (Working.start (i := i) (s := s)).readBlock false
    (busOrder u (placed regs (blockLowest p u (s.cpu.gpr rn) (blockSize regs))))
  have h1 := h.withCpu (f := (·.writeRegs m _)) (h.work.writeRegs m
    (s.readBlock false (busOrder u (placed regs (blockLowest p u (s.cpu.gpr rn) (blockSize regs))))).values
    fun x hx => hregs x.1 ?_) (ProcState.writeRegs_halted _ _ _)
  · dsimp only
    refine Working.charge ?_ 1
    split
    · next hw => exact h1.setGpr _ (hbase (by simp_all))
    · exact h1
  · have hx1 := List.mem_map_of_mem (f := Prod.fst) hx
    rw [State.readBlock_fst, List.mem_map] at hx1
    obtain ⟨y, hy, e⟩ := hx1
    exact e ▸ mem_regs_of_mem_busOrder hy

theorem Working.storeBlock {m : BitVec 5} {p u w : Bool} {rn : Reg} {list : BitVec 16}
    (hstores : i.stores s = s.blockAddrs p u rn list) (hbase : w = true → Dest i s rn) :
    Working i s (s.storeBlock m p u w rn (regsOf list)) := by
  unfold State.storeBlock
  have h := (Working.start (i := i) (s := s)).writeBlock (s.stmValue m w rn (regsOf list)
      (blockNewBase u (s.cpu.gpr rn) (blockSize (regsOf list)))) false
    (busOrder u (placed (regsOf list) (blockLowest p u (s.cpu.gpr rn) (blockSize (regsOf list)))))
    fun x hx => hstores ▸ mem_blockAddrs_of_mem_busOrder hx
  dsimp only
  split
  · next hw => exact h.setGpr _ (hbase hw)
  · exact h

end

/-! ### Leaving -/

/-- How instruction i, begun in s, can end. A jump without an exchange stays in the instruction's own set, which is the set
the T bit has selected (R90). -/
inductive Leaves (i : Instr) (s : State) : State → Prop
  /-- To the next instruction, 4 or 2 bytes on (R32). -/
  | next {u : State} (n : Word) (h : Working i s u) (hn : n = if isThumb i then 2#32 else 4#32) :
      Leaves i s (u.withCpu (·.advance n))
  /-- A write of R15 that leaves T alone (R33). -/
  | jump {u : State} (t : Bool) (target : Word) (h : Working i s u) (ht : t = isThumb i) : Leaves i s (u.jumpTo t target)
  /-- A branch exchange or a load of R15 on A (R40, R262). -/
  | exchange {u : State} (t : Bool) (target : Word) (h : Working i s u)
      (means : i.exchanges = true ∨ (i.loadsPc = true ∧ s.cur = .A)) :
      Leaves i s ((u.withCpu (·.setT t)).jumpTo t target)
  /-- A status-restore-and-jump (R164, R244, R383). -/
  | restore {u : State} (saved : Psr) (target : Word) (h : Working i s u) (means : i.restoresStatus = true)
      (hm : modeValid saved.m = true) :
      Leaves i s ((u.withCpu fun p => { p with cpsr := saved }).jumpTo saved.t target)
  /-- An MSR to CPSR (R268, R271): of the selected bytes, a legal mode, T as it was. -/
  | msr (new : Psr) (arm : isThumb i = false) (ht : new.t = s.cpu.cpsr.t) (hm : modeValid new.m = true)
      (control : i.msrSelects 0 = false → new.m = s.cpu.cpsr.m ∧ new.i = s.cpu.cpsr.i ∧ new.f = s.cpu.cpsr.f)
      (flags : i.msrSelects 3 = false → new.q = s.cpu.cpsr.q ∧ new.flags = s.cpu.cpsr.flags)
      (means : i.writesFlags = i.msrSelects 3) :
      Leaves i s (s.withCpu fun p => ProcState.advance { p with cpsr := new } 4#32)
  /-- Software-interrupt entry (R380). -/
  | swi (lr : Word) (means : i.isSwi = true) (hh : i.handled s = false) : Leaves i s (s.enterSwi lr)
  /-- A call that the host's handler services (R410). -/
  | handled (n : BitVec 8) (hh : i.handled s = true) (means : i.isSwi = true) :
      Leaves i s
        ((((s.ask (.bios s.cur n)).s.applyCalls .bios (s.ask (.bios s.cur n)).reply.calls).applyHostWrites
          (s.ask (.bios s.cur n)).reply.host).withCpu fun p =>
            { p with pc := s.cpu.pc + if isThumb i then 2#32 else 4#32 })

section
variable {i : Instr} {s u : State}

/-- Some last work on the processor, and the next instruction. -/
theorem Leaves.work_next (h : Working i s u) {f : ProcState → ProcState} {n : Word} (hw : Work i s (f u.cpu))
    (hf : (f u.cpu).halted = u.cpu.halted) (hn : n = if isThumb i then 2#32 else 4#32) :
    Leaves i s (u.withCpu fun p => (f p).advance n) := by
  have k := Leaves.next n (h.withCpu hw hf) hn
  rwa [State.withCpu_withCpu] at k

theorem Leaves.failed (arm : isThumb i = false) : Leaves i s s.advanceArm := .next 4#32 .start (by simp [arm])

theorem Leaves.interwork (h : Working i s u) (v : Word)
    (means : i.exchanges = true ∨ (i.loadsPc = true ∧ s.cur = .A)) : Leaves i s (u.interwork v) :=
  .exchange _ v h means

theorem Leaves.loadPc (h : Working i s u) (v : Word) (arm : isThumb i = false) (means : i.loadsPc = true) :
    Leaves i s (u.loadPc v) := by
  unfold State.loadPc
  rw [h.cur]
  split
  · next hA => exact .interwork h v (.inr ⟨means, hA⟩)
  · exact .jump false v h arm.symm

theorem leaves_statusRestoreJump (h : Working i s u) (v : Word) (means : i.restoresStatus = true) :
    After (u.statusRestoreJump v) (Leaves i s) := by
  unfold State.statusRestoreJump
  split
  · trivial
  · exact after_ite (fun hm => .restore _ v h means hm) fun _ => trivial

/-! ### Data processing and multiplies -/

theorem leaves_test {op : AluOp} {sf : Bool} {rd : Reg} (a : Word) (b : Shifted) (h : Working i s u)
    (test : op.isTest = true) (arm : isThumb i = false) (hf : i.writesFlags = true) :
    After (finishDp op sf rd a b u) (Leaves i s) := by
  unfold finishDp
  rw [if_pos test]
  exact .work_next h (f := (·.setFlags _)) (h.work.setFlags _ hf) rfl (by simp [arm])

theorem leaves_writeResult {sf : Bool} {rd : Reg} (x : AluResult) (h : Working i s u) (arm : isThumb i = false)
    (hd : Dest i s rd) (hf : sf = true → i.writesFlags = true) (hr : (sf && rd == 15#4) = true → i.restoresStatus = true) :
    After (writeResult sf rd x u) (Leaves i s) := by
  refine after_ite (fun hpc => after_ite (fun hsf => ?_) fun _ => ?_) fun _ => ?_
  · exact leaves_statusRestoreJump h _ (hr (by simp [hsf, hpc]))
  · exact .jump false _ h arm.symm
  · exact .work_next h (f := fun p => (p.setGpr rd x.r).setFlagsIf sf x.flags) ((h.work.setGpr _ hd).setFlagsIf _ hf)
      (ProcState.setFlagsIf_halted _ _ _) (by simp [arm])

theorem leaves_finishDp {op : AluOp} {sf : Bool} {rd : Reg} (a : Word) (b : Shifted) (h : Working i s u)
    (arm : isThumb i = false) (write : op.isTest = false) (hd : Dest i s rd) (hf : sf = true → i.writesFlags = true)
    (hr : (sf && rd == 15#4) = true → i.restoresStatus = true) : After (finishDp op sf rd a b u) (Leaves i s) := by
  unfold finishDp
  rw [if_neg (by simp [write])]
  exact leaves_writeResult _ h arm hd hf hr

theorem leaves_finishMul {sf : Bool} {rd : Reg} (r : Word) (n : Nat) (arm : isThumb i = false) (hd : Dest i s rd)
    (hf : sf = true → i.writesFlags = true) : After (finishMul sf rd r n s) (Leaves i s) :=
  .work_next (Working.start.spendCarry sf)
    (f := fun p => ((p.setGpr rd r).setFlagsIf sf (resultFlags r s.multiplyCarry p.cpsr.v)).charge n)
    ((((Working.start.spendCarry sf).work.setGpr r hd).setFlagsIf _ hf).charge n) (by simp) (by simp [arm])

theorem leaves_longMultiply {sf : Bool} {rdHi rdLo rs rm : Reg} (r : BitVec 64) (n : Nat) (arm : isThumb i = false)
    (hhi : Dest i s rdHi) (hlo : Dest i s rdLo) (hf : sf = true → i.writesFlags = true) :
    After (longMultiply sf rdHi rdLo rs rm r n s) (Leaves i s) := by
  have h : Working i s (s.spendCarry sf) := Working.start.spendCarry sf
  exact after_ite (fun _ => trivial) fun _ =>
    .work_next h (f := fun p =>
        (((p.setGpr rdLo (r.extractLsb' 0 32)).setGpr rdHi (r.extractLsb' 32 32)).setFlagsIf sf
          (longResultFlags r s.multiplyCarry p.cpsr.v)).charge n)
      ((((h.work.setGpr _ hlo).setGpr _ hhi).setFlagsIf _ hf).charge n) (by simp) (by simp [arm])

theorem leaves_finishSticky {rd : Reg} (x : Saturated) (n : Nat) (arm : isThumb i = false) (hd : Dest i s rd)
    (hq : i.setsQ = true) : After (finishSticky rd x n s) (Leaves i s) :=
  .work_next .start (f := fun p => ((p.setGpr rd x.r).stickQ x.sat).charge n)
    (((Work.start.setGpr _ hd).stickQ _ hq).charge n) rfl (by simp [arm])

theorem leaves_finishPlain {rd : Reg} (r : Word) (n : Nat) (arm : isThumb i = false) (hd : Dest i s rd) :
    After (finishPlain rd r n s) (Leaves i s) :=
  .work_next .start (f := fun p => (p.setGpr rd r).charge n) ((Work.start.setGpr _ hd).charge n) rfl (by simp [arm])

/-! ### Transfers -/

theorem transferOf_writeback_isSome {p u w : Bool} {base off : Word} :
    (transferOf p u w base off).writeback.isSome = (!p || w) := by
  cases p <;> cases w <;> rfl

theorem Working.writeBase (h : Working i s u) {rn : Reg} {x : Transfer}
    (hb : x.writeback.isSome = true → Dest i s rn) : Working i s (u.writeBase rn x) := by
  unfold State.writeBase
  split
  · exact h
  · next hx => exact h.setGpr _ (hb (by simp [hx]))

/-- A transfer with base rn of one of the two classes (R220, R226): what it needs to know of its address and writeback. -/
theorem after_transferAt {p w up : Bool} {rn : Reg} {off : Word} {f : Transfer → State → Result} {P : State → Prop}
    (h : ∀ x : Transfer, x.addr = s.transferAddr p up rn off → (x.writeback.isSome = (!p || w)) → After (f x s) P) :
    After (transfer p up w rn off s f) P :=
  after_ite (fun _ => trivial) fun _ => h _ (by cases p <;> rfl) transferOf_writeback_isSome

theorem leaves_doLdr {rd rn : Reg} {x : Transfer} (arm : isThumb i = false) (hd : Dest i s rd)
    (hb : x.writeback.isSome = true → Dest i s rn) (hl : (rd == 15#4) = true → i.loadsPc = true) :
    After (doLdr rd rn x s) (Leaves i s) := by
  have h : Working i s (((s.loadWordRotated x.addr).s.writeBase rn x).charge 1) :=
    ((Working.start.loadWordRotated _).writeBase hb).charge 1
  refine after_ite (fun hpc => .loadPc h _ arm (hl (by simp [hpc]))) fun _ => ?_
  exact .work_next h (f := (·.setGpr rd _)) (h.work.setGpr _ hd) rfl (by simp [arm])

theorem leaves_doLoad {f : State → Word → Access} (hf : ∀ a, Working i s (f s a).s) {rd rn : Reg} {x : Transfer}
    (arm : isThumb i = false) (hd : Dest i s rd) (hb : x.writeback.isSome = true → Dest i s rn) :
    After (doLoad f rd rn x s) (Leaves i s) := by
  have h : Working i s (((f s x.addr).s.writeBase rn x).charge 1) := ((hf _).writeBase hb).charge 1
  exact after_ite (fun _ => trivial) fun _ =>
    .work_next h (f := (·.setGpr rd _)) (h.work.setGpr _ hd) rfl (by simp [arm])

theorem leaves_doStr {rd rn : Reg} {x : Transfer} (arm : isThumb i = false)
    (hb : x.writeback.isSome = true → Dest i s rn) (hs : (x.addr, Width.word) ∈ i.stores s) :
    After (doStr rd rn x s) (Leaves i s) :=
  .next 4#32 ((Working.start.store _ hs).writeBase hb) (by simp [arm])

theorem leaves_doStore {wd : Width} {rd rn : Reg} {x : Transfer} (arm : isThumb i = false)
    (hb : x.writeback.isSome = true → Dest i s rn) (hs : (x.addr, wd) ∈ i.stores s) :
    After (doStore wd rd rn x s) (Leaves i s) :=
  after_ite (fun _ => trivial) fun _ => .next 4#32 ((Working.start.store _ hs).writeBase hb) (by simp [arm])

theorem leaves_doLdrd {rd rn : Reg} {x : Transfer} (arm : isThumb i = false) (hd : Dest i s rd)
    (hd1 : Dest i s (rd + 1#4)) (hb : x.writeback.isSome = true → Dest i s rn) :
    After (doLdrd rd rn x s) (Leaves i s) := by
  refine after_ite (fun _ => trivial) fun _ => .next 4#32 (Working.charge (Working.writeBase ?_ hb) 1) (by simp [arm])
  have h := ((Working.start (i := i) (s := s)).memRead (Width.word.align x.addr) .word false).memRead
    (Width.word.align x.addr + 4#32) .word true
  exact h.withCpu ((h.work.setGpr _ hd).setGpr _ hd1) rfl

theorem leaves_doStrd {rd rn : Reg} {x : Transfer} (arm : isThumb i = false)
    (hb : x.writeback.isSome = true → Dest i s rn) (h0 : (Width.word.align x.addr, Width.word) ∈ i.stores s)
    (h1 : (Width.word.align x.addr + 4#32, Width.word) ∈ i.stores s) : After (doStrd rd rn x s) (Leaves i s) :=
  after_ite (fun _ => trivial) fun _ =>
    .next 4#32 (((Working.start.memWrite _ false h0).memWrite _ true h1).writeBase hb) (by simp [arm])

/-! ### Thumb -/

theorem leaves_thumbWrite {rd : LowReg} (x : AluResult) (n : Nat) (h : Working i s u) (thumb : isThumb i = true)
    (hd : Dest i s (wide rd)) (hf : i.writesFlags = true) : After (thumbWrite rd x n u) (Leaves i s) :=
  .work_next h (f := fun p => ((p.setGpr (wide rd) x.r).setFlags x.flags).charge n)
    (((h.work.setGpr _ hd).setFlags _ hf).charge n) rfl (by simp [thumb])

theorem leaves_thumbFlags (x : AluResult) (thumb : isThumb i = true) (hf : i.writesFlags = true) :
    After (thumbFlags x s) (Leaves i s) :=
  .work_next .start (f := (·.setFlags x.flags)) (Work.start.setFlags _ hf) rfl (by simp [thumb])

theorem leaves_thumbPlain {rd : Reg} (v : Word) (thumb : isThumb i = true) (hd : Dest i s rd) :
    After (thumbPlain rd v s) (Leaves i s) :=
  .work_next .start (f := (·.setGpr rd v)) (Work.start.setGpr _ hd) rfl (by simp [thumb])

theorem leaves_thumbHighWrite {rd : Reg} (v : Word) (thumb : isThumb i = true) (hd : Dest i s rd) :
    After (thumbHighWrite rd v s) (Leaves i s) :=
  after_ite (fun _ => .jump true v .start thumb.symm) fun _ => leaves_thumbPlain v thumb hd

theorem leaves_thumbLoad {f : State → Word → Access} (hf : ∀ a, Working i s (f s a).s) {rd : LowReg} {a : Word}
    (thumb : isThumb i = true) (hd : Dest i s (wide rd)) : After (thumbLoad f rd a s) (Leaves i s) :=
  .work_next (hf a) (f := fun p => (p.setGpr (wide rd) (f s a).v).charge 1)
    (((hf a).work.setGpr _ hd).charge 1) rfl (by simp [thumb])

theorem leaves_thumbStore {wd : Width} {rd : LowReg} {a : Word} (thumb : isThumb i = true)
    (hs : (a, wd) ∈ i.stores s) : After (thumbStore wd rd a s) (Leaves i s) :=
  .next 2#32 (Working.start.store _ hs) (by simp [thumb])

end

end Sys2Proof.Machine

namespace Sys2Proof.Machine

/-! ### Status words -/

/-- Each field of a status word at its bits, bits 26:8 zero (R34, R35). -/
theorem Psr.getLsbD_toWord (q : Psr) {k : Nat} (hk : k < 32) : q.toWord.getLsbD k =
    (if k = 31 then q.n else if k = 30 then q.z else if k = 29 then q.c else if k = 28 then q.v
      else if k = 27 then q.q else if k = 7 then q.i else if k = 6 then q.f else if k = 5 then q.t
      else if k < 5 then q.m.getLsbD k else false) := by
  simp only [Psr.toWord, BitVec.getLsbD_append]
  interval_cases k <;> simp

/-- A status word read back and written is the same status (R34). -/
theorem Psr.ofWord_toWord (q : Psr) : Psr.ofWord q.toWord = q := by
  have hm : q.toWord.extractLsb' 0 5 = q.m := BitVec.extractLsb'_append_eq_right
  have hbit := fun k hk => q.getLsbD_toWord (k := k) hk
  rw [Psr.ofWord, hm, hbit 31 (by decide), hbit 30 (by decide), hbit 29 (by decide), hbit 28 (by decide),
    hbit 27 (by decide), hbit 7 (by decide), hbit 6 (by decide), hbit 5 (by decide)]
  rfl

/-- A written word keeps its writable bits alone (R35). -/
theorem Psr.toWord_ofWord (w : Word) : (Psr.ofWord w).toWord = w &&& 0xF80000FF#32 := by
  refine BitVec.eq_of_getLsbD_eq fun k hk => ?_
  rw [Psr.getLsbD_toWord _ hk]
  interval_cases k <;> simp [Psr.ofWord]

/-- Settles O49: the fields are the parts of an append, bit by bit. -/
theorem statusWordLayout : Obligations.StatusWordLayout := fun q w =>
  ⟨fun _ hk => q.getLsbD_toWord hk, q.ofWord_toWord, Psr.toWord_ofWord w⟩

/-! ### MSR's masks -/

/-- The bits of the fields an MSR mask selects: of the four bytes only the flags' and the control byte hold writable bits
(R35, R267). -/
def msrBits (mask : BitVec 4) (control : Bool) : Word :=
  (if mask.getLsbD 3 then 0xF8000000#32 else 0#32) ||| (if mask.getLsbD 0 && control then 0x000000FF#32 else 0#32)

theorem msrByteMask_eq (mask : BitVec 4) : msrByteMask mask = msrBits mask true := by revert mask; decide

/-- In USR mode the control byte is not writable (R268). -/
theorem ProcState.cpsrMask_eq (p : ProcState) (mask : BitVec 4) :
    p.cpsrMask mask = msrBits mask (decide (p.cpsr.m ≠ Mode.usr.bits)) := by
  have husr : msrByteMask mask &&& 0xF8000000#32 = msrBits mask false := by revert mask; decide
  unfold ProcState.cpsrMask
  split
  · next h => rw [husr]; simp [h]
  · next h => rw [msrByteMask_eq]; simp [h]

theorem getLsbD_msrBits_control {mask : BitVec 4} (h : mask.getLsbD 0 = false) (control : Bool) {k : Nat} (hk : k < 8) :
    (msrBits mask control).getLsbD k = false := by
  simp only [msrBits, h, Bool.false_and, Bool.false_eq_true, if_false, BitVec.or_zero]
  split
  · interval_cases k <;> rfl
  · exact BitVec.getLsbD_zero

theorem getLsbD_msrBits_flags {mask : BitVec 4} (h : mask.getLsbD 3 = false) (control : Bool) {k : Nat} (hk : 27 ≤ k) :
    (msrBits mask control).getLsbD k = false := by
  simp only [msrBits, h, Bool.false_eq_true, if_false, BitVec.zero_or]
  split
  · exact Nat.testBit_lt_two_pow ((by decide : 0xFF < 2 ^ 8).trans_le (Nat.pow_le_pow_right (by decide) (by omega)))
  · exact BitVec.getLsbD_zero

theorem getLsbD_merge (old v b : Word) {k : Nat} (hk : k < 32) :
    (old &&& ~~~b ||| v &&& b).getLsbD k = if b.getLsbD k then v.getLsbD k else old.getLsbD k := by
  simp only [BitVec.getLsbD_or, BitVec.getLsbD_and, BitVec.getLsbD_not, hk, decide_true, Bool.true_and]
  cases b.getLsbD k <;> simp

/-- A write that takes none of the low eight bits leaves the mode, the masks and T alone. -/
theorem Psr.masked_control (q : Psr) {b : Word} (v : Word) (h : ∀ k, k < 8 → b.getLsbD k = false) :
    (q.masked b v).m = q.m ∧ (q.masked b v).i = q.i ∧ (q.masked b v).f = q.f := by
  have hbit : ∀ k, k < 8 → (q.toWord &&& ~~~b ||| v &&& b).getLsbD k = q.toWord.getLsbD k := fun k hk => by
    rw [getLsbD_merge _ _ _ (by omega), h k hk]; rfl
  refine ⟨BitVec.eq_of_getLsbD_eq fun k hk => ?_, (hbit 7 (by decide)).trans ?_, (hbit 6 (by decide)).trans ?_⟩
  · have hm := (hbit k (by omega)).trans (q.getLsbD_toWord (by omega : k < 32))
    simp only [Psr.masked, Psr.ofWord, BitVec.getLsbD_extractLsb', hk, decide_true, Bool.true_and, Nat.zero_add, hm]
    interval_cases k <;> rfl
  · exact q.getLsbD_toWord (by decide)
  · exact q.getLsbD_toWord (by decide)

/-- A write that takes none of the top five bits leaves N, Z, C, V and Q alone. -/
theorem Psr.masked_flags (q : Psr) {b : Word} (v : Word) (h : ∀ k, 27 ≤ k → b.getLsbD k = false) :
    (q.masked b v).q = q.q ∧ (q.masked b v).flags = q.flags := by
  have hbit : ∀ k, 27 ≤ k → k < 32 → (q.toWord &&& ~~~b ||| v &&& b).getLsbD k = q.toWord.getLsbD k := fun k hk hk' => by
    rw [getLsbD_merge _ _ _ hk', h k hk]; rfl
  have hn := (hbit 31 (by decide) (by decide)).trans (q.getLsbD_toWord (by decide))
  have hz := (hbit 30 (by decide) (by decide)).trans (q.getLsbD_toWord (by decide))
  have hc := (hbit 29 (by decide) (by decide)).trans (q.getLsbD_toWord (by decide))
  have hv := (hbit 28 (by decide) (by decide)).trans (q.getLsbD_toWord (by decide))
  have hq := (hbit 27 (by decide) (by decide)).trans (q.getLsbD_toWord (by decide))
  exact ⟨hq, by simp only [Psr.masked, Psr.ofWord, Psr.flags, hn, hz, hc, hv]; rfl⟩

end Sys2Proof.Machine

namespace Sys2Proof.Machine

/-! ### MRS and MSR -/

theorem ifPassed_of_passed {c : Cond} {s : State} (h : condPassed c s.cpu.cpsr = true) (f : State → Result) :
    ifPassed c s f = f s := if_pos h

/-- A change of the running processor is what it makes of that processor. -/
theorem State.withCpu_congr {s : State} {f g : ProcState → ProcState} (h : f s.cpu = g s.cpu) :
    s.withCpu f = s.withCpu g := by
  simp only [State.withCpu, Pair.modify, h]

section
variable (mask : BitVec 4) (v : Word) (s : State)

/-- CPSR after an MSR of its selected bytes (R268). -/
def State.msrNew : Psr := s.cpu.cpsr.masked (msrBits mask (decide (s.cpu.cpsr.m ≠ Mode.usr.bits))) v

theorem msrCpsr_eq : msrCpsr mask v s =
    if (s.msrNew mask v).t ≠ s.cpu.cpsr.t then fatal s
    else if modeValid (s.msrNew mask v).m then
      .next (s.withCpu fun p => { p with cpsr := s.msrNew mask v, pc := p.pc + 4#32 })
    else inconsistent s := by
  simp only [msrCpsr, ProcState.cpsrMask_eq]
  rfl

/-- The three answers of an MSR to CPSR (R268, R271, R39). -/
theorem msrCpsr_spec :
    ((s.msrNew mask v).t = s.cpu.cpsr.t → modeValid (s.msrNew mask v).m = true →
      msrCpsr mask v s = .next (s.withCpu fun p => { p with cpsr := s.msrNew mask v, pc := p.pc + 4#32 })) ∧
    ((s.msrNew mask v).t ≠ s.cpu.cpsr.t → msrCpsr mask v s = .fault (.unsupported s.ir s.cpu.pc)) ∧
    ((s.msrNew mask v).t = s.cpu.cpsr.t → modeValid (s.msrNew mask v).m = false →
      msrCpsr mask v s = .fault (.invalidState s.ir s.cpu.pc)) := by
  rw [msrCpsr_eq]
  refine ⟨fun ht hm => ?_, fun ht => if_pos ht, fun ht hm => ?_⟩
  · rw [if_neg (not_not.2 ht), if_pos hm]
  · rw [if_neg (not_not.2 ht), if_neg (by simp [hm]), inconsistent]

/-- The two answers of an MSR to SPSR (R269). -/
theorem msrSpsr_spec :
    (∀ old, s.cpu.spsr.get? s.cpu.cpsr.m = some old →
      msrSpsr mask v s = .next (s.withCpu fun p =>
        { p with spsr := p.spsr.put s.cpu.cpsr.m (old.masked (msrBits mask true) v), pc := p.pc + 4#32 })) ∧
    (s.cpu.spsr.get? s.cpu.cpsr.m = none → msrSpsr mask v s = .fault (.invalidState s.ir s.cpu.pc)) := by
  refine ⟨fun old h => ?_, fun h => ?_⟩
  · simp only [msrSpsr, h, msrByteMask_eq]
    exact congrArg _ (State.withCpu_congr rfl)
  · simp only [msrSpsr, h, inconsistent]

end

/-- Of the seven modes USR and SYS alone have no saved status word (R38). -/
theorem SpsrBank.get?_eq_none_iff (b : SpsrBank) {m : BitVec 5} (h : modeValid m = true) :
    b.get? m = none ↔ m = Mode.usr.bits ∨ m = Mode.sys.bits := by
  simp only [modeValid, Bool.or_eq_true, beq_iff_eq] at h
  obtain ((((((rfl | rfl) | rfl) | rfl) | rfl) | rfl) | rfl) := h <;> simp [SpsrBank.get?, Mode.bits]

/-- A register write and the next instruction, as the statements put it. -/
theorem State.wrote_zero (s : State) (rd : Reg) (r : Word) :
    s.wrote rd r s.cpu.cpsr 0 = s.withCpu fun p => (p.setGpr rd r).advance 4#32 := State.withCpu_congr rfl

/-- Settles O50: the mask of an MSR is that of two fields, and each answer is one branch of its meaning. -/
theorem statusRegisterAccess : Obligations.StatusRegisterAccess := by
  intro c rd rm mask rot imm8 s hc hrd hrm
  dsimp only
  have hmrs (r : Bool) : exec (.mrs c r rd) s = execMrs c r rd s := rfl
  have hreg : exec (.msrRegCpsr c mask rm) s = msrCpsr mask (s.cpu.gpr rm) s := by
    rw [exec, execMsrRegCpsr, ifPassed_of_passed hc, if_neg hrm]
  have himm : exec (.msrImm c false mask rot imm8) s = msrCpsr mask (rotatedImm rot imm8) s := by
    rw [exec, execMsrImm, ifPassed_of_passed hc]; rfl
  have hregS : exec (.msrRegSpsr c mask rm) s = msrSpsr mask (s.cpu.gpr rm) s := by
    rw [exec, execMsrRegSpsr, ifPassed_of_passed hc, if_neg hrm]
  have himmS : exec (.msrImm c true mask rot imm8) s = msrSpsr mask (rotatedImm rot imm8) s := by
    rw [exec, execMsrImm, ifPassed_of_passed hc]; rfl
  rw [hmrs, hmrs, hreg, himm, hregS, himmS]
  simp only [execMrs, ifPassed_of_passed hc, if_neg hrd]
  refine ⟨?_, fun old h => ?_, fun h => ?_, msrCpsr_spec mask _ s, msrCpsr_spec mask _ s, msrSpsr_spec mask _ s,
    msrSpsr_spec mask _ s, s.cpu.spsr.get?_eq_none_iff⟩
  · exact congrArg Host.Outcome.next (State.withCpu_congr rfl)
  · simp only [if_true, h, State.wrote_zero]
  · simp only [if_true, h, inconsistent]

end Sys2Proof.Machine

namespace Sys2Proof.Machine

/-! ### Status registers, coprocessor moves and software interrupts leave so -/

section
variable {i : Instr} {s : State}

theorem leaves_msrCpsr {mask : BitVec 4} (v : Word) (arm : isThumb i = false)
    (h0 : i.msrSelects 0 = mask.getLsbD 0) (h3 : i.msrSelects 3 = mask.getLsbD 3) (hw : i.writesFlags = mask.getLsbD 3) :
    After (msrCpsr mask v s) (Leaves i s) := by
  rw [msrCpsr_eq]
  refine after_ite (fun _ => trivial) fun ht => after_ite (fun hm => ?_) fun _ => trivial
  exact .msr (s.msrNew mask v) arm (not_not.1 ht) hm
    (fun h => Psr.masked_control _ v fun _ hk => getLsbD_msrBits_control (h0 ▸ h) _ hk)
    (fun h => Psr.masked_flags _ v fun _ hk => getLsbD_msrBits_flags (h3 ▸ h) _ hk) (hw.trans h3.symm)

theorem leaves_msrSpsr {mask : BitVec 4} (v : Word) (arm : isThumb i = false) (hi : i.writesSpsr = true) :
    After (msrSpsr mask v s) (Leaves i s) := by
  unfold msrSpsr
  split
  · trivial
  · next saved _ =>
    exact .work_next .start (f := fun p => { p with spsr := p.spsr.put p.cpsr.m (saved.masked (msrByteMask mask) v) })
      (Work.start.putSpsr _ hi) rfl (by simp [arm])

theorem leaves_execMrs {c : Cond} {r : Bool} {rd : Reg} : After (execMrs c r rd s) (Leaves (.mrs c r rd) s) := by
  have hd : Dest (.mrs c r rd) s rd := List.Mem.head _
  refine after_ifPassed (after_ite (fun _ => trivial) fun _ => after_ite (fun _ => ?_) fun _ => ?_) (.failed rfl)
  · split
    · trivial
    · next saved _ => exact .work_next .start (f := (·.setGpr rd saved.toWord)) (Work.start.setGpr _ hd) rfl rfl
  · exact .work_next .start (f := fun p => p.setGpr rd p.cpsr.toWord) (Work.start.setGpr _ hd) rfl rfl

theorem leaves_execMrc {c : Cond} {opc1 : BitVec 3} {crn rd cp : Reg} {opc2 : BitVec 3} {crm : Reg} :
    After (execMrc c opc1 crn rd cp opc2 crm s) (Leaves (.mrc c opc1 crn rd cp opc2 crm) s) := by
  refine after_ifPassed (after_ite (fun _ => ?_) fun _ => trivial) (.failed rfl)
  have h := (Working.start (i := .mrc c opc1 crn rd cp opc2 crm) (s := s)).ask (.moveFrom opc1 crn opc2 crm) .coprocessor
  by_cases hpc : rd = 15#4
  · simp only [hpc, if_true]
    subst hpc
    exact .work_next h.1 (f := fun p => (p.setFlags _).charge 1) ((h.1.work.setFlags _ rfl).charge 1) rfl rfl
  · simp only [hpc, if_false]
    exact .work_next h.1 (f := fun p => (p.setGpr rd _).charge 1)
      ((h.1.work.setGpr _ (List.Mem.head _)).charge 1) rfl rfl

/-- Only what has been put to a collaborator may halt the processor. -/
theorem Working.wait {u : State} (h : Working i s u) (asked : s.outbox.length < u.outbox.length) (b : Bool) :
    Working i s (u.withCpu fun p => { p.charge 1 with halted := p.halted || b }) where
  work := by rw [State.withCpu_cpu]; exact h.work.of_sameRegs ⟨rfl, rfl, rfl, rfl⟩
  cur := h.cur
  asked := h.asked
  world := fun e => absurd e asked.ne'

theorem leaves_execMcr {c : Cond} {opc1 : BitVec 3} {crn rd cp : Reg} {opc2 : BitVec 3} {crm : Reg} :
    After (execMcr c opc1 crn rd cp opc2 crm s) (Leaves (.mcr c opc1 crn rd cp opc2 crm) s) := by
  refine after_ifPassed (after_ite (fun _ => ?_) fun _ => trivial) (.failed rfl)
  have h := (Working.start (i := .mcr c opc1 crn rd cp opc2 crm) (s := s)).ask
    (.moveTo opc1 crn (s.cpu.gpr rd) opc2 crm) .coprocessor
  have k := Leaves.next 4#32 (h.1.wait h.2 (isWaitForInterrupt opc1 crn opc2 crm)) rfl
  rwa [State.withCpu_withCpu] at k

theorem leaves_softwareInterrupt {n : BitVec 8} {next : Word} (means : i.isSwi = true)
    (hn : i.handled s = s.hleHandles n) (hnext : next = s.cpu.pc + if isThumb i then 2#32 else 4#32) :
    Leaves i s (s.softwareInterrupt n next) := by
  unfold State.softwareInterrupt
  split
  · next hh => exact hnext ▸ .handled n (hn.trans hh) means
  · next hh => exact .swi next means (hn.trans (by simpa using hh))

/-! ### Swaps and blocks leave so -/

theorem leaves_swap {f : State → Word → Access} (hf : ∀ a, Working i s (f s a).s) {rn rd rm : Reg} {w : Width}
    (arm : isThumb i = false) (hd : Dest i s rd) (hs : (s.cpu.gpr rn, w) ∈ i.stores s) :
    Leaves i s (((f s (s.cpu.gpr rn)).s.store (s.cpu.gpr rn) w (s.cpu.gpr rm)).withCpu fun p =>
      ((p.setGpr rd (f s (s.cpu.gpr rn)).v).charge 1).advance 4#32) := by
  have h := (hf (s.cpu.gpr rn)).store (s.cpu.gpr rm) hs
  exact .work_next h (f := fun p => (p.setGpr rd _).charge 1) ((h.work.setGpr _ hd).charge 1) rfl (by simp [arm])

/-- R15 can come out of a block load only if it is listed. -/
theorem mem_of_pcValue {vs : List (Reg × Word)} {v : Word} (h : pcValue vs = some v) : (15#4, v) ∈ vs := by
  induction vs with
  | nil => cases h
  | cons x rest ih =>
    simp only [pcValue] at h
    split at h
    · next hx => cases h; exact hx ▸ List.mem_cons_self
    · exact List.mem_cons_of_mem _ (ih h)

theorem pc_listed_of_loadBlock {m : BitVec 5} {p u w : Bool} {rn : Reg} {list : BitVec 16} {v : Word}
    (h : pcValue (s.loadBlock m p u w rn (regsOf list)).values = some v) : list.getLsbD 15 = true := by
  have h1 := List.mem_map_of_mem (f := Prod.fst) (mem_of_pcValue h)
  simp only [State.loadBlock, State.readBlock_fst, List.mem_map] at h1
  obtain ⟨x, hx, hpc⟩ := h1
  have hr := mem_regs_of_mem_busOrder hx
  rw [hpc, mem_regsOf] at hr
  exact hr

theorem leaves_execLdm {c : Cond} {p u w : Bool} {rn : Reg} {list : BitVec 16} :
    After (execLdm c p u w rn list s) (Leaves (.ldm c p u w rn list) s) := by
  refine after_ifPassed (after_ite (fun _ => trivial) fun _ => ?_) (.failed rfl)
  have h : Working (.ldm c p u w rn list) s (s.loadBlock s.cpu.cpsr.m p u w rn (regsOf list)).s :=
    Working.loadBlock (fun r hr _ => List.mem_map_of_mem (List.mem_append_left _ hr))
      fun hw => List.mem_map_of_mem (List.mem_append_right _ (by simp [hw]))
  dsimp only
  split
  · next v hv => exact .loadPc h v rfl (pc_listed_of_loadBlock hv)
  · exact .next 4#32 h rfl

theorem leaves_execLdmS {c : Cond} {p u w : Bool} {rn : Reg} {list : BitVec 16} :
    After (execLdmS c p u w rn list s) (Leaves (.ldmS c p u w rn list) s) := by
  refine after_ifPassed (after_ite (fun _ => trivial) fun _ => ?_) (.failed rfl)
  have h : Working (.ldmS c p u w rn list) s
      (s.loadBlock (if list.getLsbD 15 then s.cpu.cpsr.m else Mode.usr.bits) p u w rn (regsOf list)).s :=
    Working.loadBlock (fun r hr _ => List.mem_append_left _ (List.mem_map_of_mem hr))
      fun hw => List.mem_append_right _ (by simp [hw])
  dsimp only
  split
  · next v hv => exact leaves_statusRestoreJump h v (pc_listed_of_loadBlock hv)
  · exact .next 4#32 h rfl

theorem mem_regsOf_of_popList {r : Bool} {rlist : BitVec 8} {x : Reg} (h : x ∈ regsOf (popList r rlist)) (hx : x ≠ 15#4) :
    x ∈ regsOf (rlist.setWidth 16) := by
  rw [mem_regsOf] at h ⊢
  have hlt : x.toNat < 15 := by
    have := x.isLt
    have hne : x.toNat ≠ 15 := fun e => hx (BitVec.eq_of_toNat_eq e)
    omega
  simp only [popList, BitVec.getLsbD_append, BitVec.getLsbD_setWidth] at h ⊢
  split at h
  · simp_all; omega
  · rw [if_pos (by omega)] at h
    simp at h

theorem leaves_execTPop {r : Bool} {rlist : BitVec 8} : After (execTPop r rlist s) (Leaves (.tPop r rlist) s) := by
  refine after_ite (fun _ => trivial) fun _ => ?_
  have h : Working (.tPop r rlist) s
      (s.loadBlock s.cpu.cpsr.m false true true 13#4 (regsOf (popList r rlist))).s :=
    Working.loadBlock (fun x hx hpc => List.mem_map_of_mem (List.mem_cons_of_mem _ (mem_regsOf_of_popList hx hpc)))
      fun _ => List.mem_map_of_mem List.mem_cons_self
  dsimp only
  split
  · next v hv hA =>
    have hr : (popList r rlist).getLsbD 15 = true := pc_listed_of_loadBlock hv
    have hr' : (popList r rlist).getLsbD 15 = r := by
      simp only [popList, BitVec.getLsbD_append]; cases r <;> rfl
    exact .interwork h v (.inr ⟨hr' ▸ hr, hA⟩)
  · exact .jump true _ h rfl
  · exact .next 2#32 h rfl

theorem leaves_execTLdmia {rb : LowReg} {rlist : BitVec 8} :
    After (execTLdmia rb rlist s) (Leaves (.tLdmia rb rlist) s) :=
  after_ite (fun _ => trivial) fun _ =>
    .next 2#32 (Working.loadBlock (fun _ hr _ => List.mem_map_of_mem (List.mem_cons_of_mem _ hr))
      fun _ => List.mem_map_of_mem List.mem_cons_self) rfl

theorem leaves_execPld {b u : Bool} {rn : Reg} {off12 : BitVec 12} :
    After (execPld b u rn off12 s) (Leaves (.pld b u rn off12) s) := by
  refine after_onlyIfA ?_
  split
  · trivial
  · exact .failed rfl

/-! ### Where transfers write back and store -/

theorem mem_baseOf {p w : Bool} {rn : Reg} (h : (!p || w) = true) : rn ∈ baseOf p w rn := by simp [baseOf, h]

/-- The scaled offset of a Thumb transfer, as the model and as the statements write it (R331, R340). -/
theorem wordOffset_eq {n : Nat} (x : BitVec n) : wordOffset x.toNat = x.setWidth 32 * 4#32 := by
  apply BitVec.eq_of_toNat_eq
  simp [wordOffset, BitVec.toNat_mul, Nat.mul_comm]

theorem halfOffset_eq (off5 : BitVec 5) : BitVec.ofNat 32 (2 * off5.toNat) = off5.setWidth 32 * 2#32 := by
  apply BitVec.eq_of_toNat_eq
  simp [BitVec.toNat_mul, Nat.mul_comm]

end

end Sys2Proof.Machine

namespace Sys2Proof.Machine

/-! ### All instructions -/

/-- A halfword, signed or doubleword transfer is an ARM instruction, whatever its offset. -/
theorem isThumb_half (c : Cond) (p u w : Bool) (rn rd : Reg) (off : HalfOffset) :
    isThumb (.ldrh c p u w rn rd off) = false ∧ isThumb (.strh c p u w rn rd off) = false ∧
      isThumb (.ldrsb c p u w rn rd off) = false ∧ isThumb (.ldrsh c p u w rn rd off) = false ∧
      isThumb (.ldrd c p u w rn rd off) = false ∧ isThumb (.strd c p u w rn rd off) = false := by
  cases off <;> exact ⟨rfl, rfl, rfl, rfl, rfl, rfl⟩

theorem after_transferHalfAt {s : State} {p up w : Bool} {rn : Reg} {off : HalfOffset} {f : Transfer → State → Result}
    {P : State → Prop}
    (h : ∀ x : Transfer, x.addr = s.transferAddr p up rn (s.halfOffset off) → (x.writeback.isSome = (!p || w)) →
      After (f x s) P) :
    After (transferHalf p up w rn off s f) P := by
  cases off with
  | imm v => exact after_transferAt h
  | reg rm => exact after_ite (fun _ => trivial) fun _ => after_transferAt h

/-- Every instruction works and leaves: the one pass over all meanings, from which the frame statements are read off. -/
theorem exec_leaves (i : Instr) (s : State) : After (exec i s) (Leaves i s) := by
  cases i with
  | andImm | eorImm | subImm | rsbImm | addImm | adcImm | sbcImm | rscImm | orrImm | movImm | bicImm | mvnImm
  | andRsi | eorRsi | subRsi | rsbRsi | addRsi | adcRsi | sbcRsi | rscRsi | orrRsi | movRsi | bicRsi | mvnRsi =>
    unfold exec
    exact after_ifPassed (leaves_finishDp _ _ .start rfl rfl (List.Mem.head _) id id) (.failed rfl)
  | andRsr | eorRsr | subRsr | rsbRsr | addRsr | adcRsr | sbcRsr | rscRsr | orrRsr | movRsr | bicRsr | mvnRsr =>
    unfold exec
    exact after_ifPassed (after_ite (fun _ => trivial) fun _ =>
      leaves_finishDp _ _ (Working.start.charge 1) rfl rfl (List.Mem.head _) id id) (.failed rfl)
  | tstImm | teqImm | cmpImm | cmnImm | tstRsi | teqRsi | cmpRsi | cmnRsi =>
    unfold exec
    exact after_ifPassed (leaves_test _ _ .start rfl rfl rfl) (.failed rfl)
  | tstRsr | teqRsr | cmpRsr | cmnRsr =>
    unfold exec
    exact after_ifPassed (after_ite (fun _ => trivial) fun _ =>
      leaves_test _ _ (Working.start.charge 1) rfl rfl rfl) (.failed rfl)
  | mrs => exact leaves_execMrs
  | msrRegCpsr =>
    unfold exec
    exact after_ifPassed (after_ite (fun _ => trivial) fun _ => leaves_msrCpsr _ rfl rfl rfl rfl) (.failed rfl)
  | msrRegSpsr =>
    unfold exec
    exact after_ifPassed (after_ite (fun _ => trivial) fun _ => leaves_msrSpsr _ rfl rfl) (.failed rfl)
  | msrImm c r mask rot imm8 =>
    unfold exec
    refine after_ifPassed ?_ (.failed rfl)
    cases r with
    | true => exact leaves_msrSpsr _ rfl rfl
    | false => exact leaves_msrCpsr _ rfl rfl rfl rfl
  | bx =>
    unfold exec
    exact after_ifPassed (.interwork .start _ (.inl rfl)) (.failed rfl)
  | blxReg =>
    unfold exec
    exact after_onlyIfA (after_ifPassed (after_ite (fun _ => trivial) fun _ =>
      .interwork (Working.start.setGpr _ (by exact List.Mem.head _)) _ (.inl rfl)) (.failed rfl))
  | blxImm | tBlxSuffix =>
    unfold exec
    exact after_onlyIfA (.exchange _ _ (Working.start.setGpr _ (List.Mem.head _)) (.inl rfl))
  | clz | smulwY | smulXy =>
    unfold exec
    exact after_onlyIfA (after_ifPassed (after_ite (fun _ => trivial) fun _ =>
      leaves_finishPlain _ _ rfl (List.Mem.head _)) (.failed rfl))
  | qadd | qsub | qdadd | qdsub | smlaXy | smlawY =>
    unfold exec
    exact after_onlyIfA (after_ifPassed (after_ite (fun _ => trivial) fun _ =>
      leaves_finishSticky _ _ rfl (List.Mem.head _) rfl) (.failed rfl))
  | smlalXy =>
    unfold exec
    exact after_onlyIfA (after_ifPassed
      (leaves_longMultiply _ _ rfl (List.Mem.head _) (List.Mem.tail _ (List.Mem.head _)) nofun) (.failed rfl))
  | umull | umlal | smull | smlal =>
    unfold exec
    exact after_ifPassed
      (leaves_longMultiply _ _ rfl (List.Mem.head _) (List.Mem.tail _ (List.Mem.head _)) id) (.failed rfl)
  | mul | mla =>
    unfold exec
    exact after_ifPassed (after_ite (fun _ => trivial) fun _ => leaves_finishMul _ _ rfl (List.Mem.head _) id)
      (.failed rfl)
  | bkpt =>
    unfold exec
    exact after_onlyIfA (after_ifPassed trivial (.failed rfl))
  | cdp | mcrrMrrc | ldcStc =>
    unfold exec
    exact after_ifPassed trivial (.failed rfl)
  | mrc => exact leaves_execMrc
  | mcr => exact leaves_execMcr
  | pld => exact leaves_execPld
  | swp =>
    unfold exec
    exact after_ifPassed (after_ite (fun _ => trivial) fun _ =>
      leaves_swap Working.start.loadWordRotated rfl (List.Mem.head _) (List.Mem.head _)) (.failed rfl)
  | swpb =>
    unfold exec
    exact after_ifPassed (after_ite (fun _ => trivial) fun _ =>
      leaves_swap Working.start.loadByte rfl (List.Mem.head _) (List.Mem.head _)) (.failed rfl)
  | ldrImm =>
    unfold exec
    exact after_ifPassed (after_transferAt fun x _ hb => leaves_doLdr rfl (List.Mem.head _)
      (fun h => List.mem_map_of_mem (List.Mem.tail _ (mem_baseOf (hb ▸ h)))) id) (.failed rfl)
  | ldrReg =>
    unfold exec
    exact after_ifPassed (after_ite (fun _ => trivial) fun _ => after_transferAt fun x _ hb =>
      leaves_doLdr rfl (List.Mem.head _)
        (fun h => List.mem_map_of_mem (List.Mem.tail _ (mem_baseOf (hb ▸ h)))) id) (.failed rfl)
  | ldrtImm =>
    unfold exec
    exact after_ifPassed (after_transferAt fun x _ _ =>
      leaves_doLdr rfl (List.Mem.head _) (fun _ => List.Mem.tail _ (List.Mem.head _)) id) (.failed rfl)
  | ldrtReg =>
    unfold exec
    exact after_ifPassed (after_ite (fun _ => trivial) fun _ => after_transferAt fun x _ _ =>
      leaves_doLdr rfl (List.Mem.head _) (fun _ => List.Mem.tail _ (List.Mem.head _)) id) (.failed rfl)
  | ldrbImm =>
    unfold exec
    exact after_ifPassed (after_transferAt fun x _ hb => leaves_doLoad Working.start.loadByte rfl (List.Mem.head _)
      fun h => List.mem_map_of_mem (List.Mem.tail _ (mem_baseOf (hb ▸ h)))) (.failed rfl)
  | ldrbReg =>
    unfold exec
    exact after_ifPassed (after_ite (fun _ => trivial) fun _ => after_transferAt fun x _ hb =>
      leaves_doLoad Working.start.loadByte rfl (List.Mem.head _)
        fun h => List.mem_map_of_mem (List.Mem.tail _ (mem_baseOf (hb ▸ h)))) (.failed rfl)
  | ldrbtImm =>
    unfold exec
    exact after_ifPassed (after_transferAt fun x _ _ => leaves_doLoad Working.start.loadByte rfl (List.Mem.head _)
      fun _ => List.Mem.tail _ (List.Mem.head _)) (.failed rfl)
  | ldrbtReg =>
    unfold exec
    exact after_ifPassed (after_ite (fun _ => trivial) fun _ => after_transferAt fun x _ _ =>
      leaves_doLoad Working.start.loadByte rfl (List.Mem.head _) fun _ => List.Mem.tail _ (List.Mem.head _)) (.failed rfl)
  | strImm =>
    unfold exec
    exact after_ifPassed (after_transferAt fun x ha hb => leaves_doStr rfl
      (fun h => List.mem_map_of_mem (mem_baseOf (hb ▸ h))) (ha ▸ List.Mem.head _)) (.failed rfl)
  | strReg =>
    unfold exec
    exact after_ifPassed (after_ite (fun _ => trivial) fun _ => after_transferAt fun x ha hb => leaves_doStr rfl
      (fun h => List.mem_map_of_mem (mem_baseOf (hb ▸ h))) (ha ▸ List.Mem.head _)) (.failed rfl)
  | strtImm =>
    unfold exec
    exact after_ifPassed (after_transferAt fun x ha _ => leaves_doStr rfl
      (fun _ => List.Mem.head _) (ha ▸ List.Mem.head _)) (.failed rfl)
  | strtReg =>
    unfold exec
    exact after_ifPassed (after_ite (fun _ => trivial) fun _ => after_transferAt fun x ha _ => leaves_doStr rfl
      (fun _ => List.Mem.head _) (ha ▸ List.Mem.head _)) (.failed rfl)
  | strbImm =>
    unfold exec
    exact after_ifPassed (after_transferAt fun x ha hb => leaves_doStore rfl
      (fun h => List.mem_map_of_mem (mem_baseOf (hb ▸ h))) (ha ▸ List.Mem.head _)) (.failed rfl)
  | strbReg =>
    unfold exec
    exact after_ifPassed (after_ite (fun _ => trivial) fun _ => after_transferAt fun x ha hb => leaves_doStore rfl
      (fun h => List.mem_map_of_mem (mem_baseOf (hb ▸ h))) (ha ▸ List.Mem.head _)) (.failed rfl)
  | strbtImm =>
    unfold exec
    exact after_ifPassed (after_transferAt fun x ha _ => leaves_doStore rfl
      (fun _ => List.Mem.head _) (ha ▸ List.Mem.head _)) (.failed rfl)
  | strbtReg =>
    unfold exec
    exact after_ifPassed (after_ite (fun _ => trivial) fun _ => after_transferAt fun x ha _ => leaves_doStore rfl
      (fun _ => List.Mem.head _) (ha ▸ List.Mem.head _)) (.failed rfl)
  | ldrh c p u w rn rd off =>
    obtain ⟨hldrh, -⟩ := isThumb_half c p u w rn rd off
    unfold exec
    exact after_ifPassed (after_transferHalfAt fun x _ hb =>
      leaves_doLoad Working.start.loadHalf hldrh (List.Mem.head _)
        fun h => List.mem_map_of_mem (List.Mem.tail _ (mem_baseOf (hb ▸ h)))) (.failed hldrh)
  | strh c p u w rn rd off =>
    obtain ⟨-, hstrh, -⟩ := isThumb_half c p u w rn rd off
    unfold exec
    exact after_ifPassed (after_transferHalfAt fun x ha hb => leaves_doStore hstrh
      (fun h => List.mem_map_of_mem (mem_baseOf (hb ▸ h))) (ha ▸ List.Mem.head _)) (.failed hstrh)
  | ldrsb c p u w rn rd off =>
    obtain ⟨-, -, hldrsb, -⟩ := isThumb_half c p u w rn rd off
    unfold exec
    exact after_ifPassed (after_transferHalfAt fun x _ hb =>
      leaves_doLoad Working.start.loadSignedByte hldrsb (List.Mem.head _)
        fun h => List.mem_map_of_mem (List.Mem.tail _ (mem_baseOf (hb ▸ h)))) (.failed hldrsb)
  | ldrsh c p u w rn rd off =>
    obtain ⟨-, -, -, hldrsh, -⟩ := isThumb_half c p u w rn rd off
    unfold exec
    exact after_ifPassed (after_transferHalfAt fun x _ hb =>
      leaves_doLoad Working.start.loadSignedHalf hldrsh (List.Mem.head _)
        fun h => List.mem_map_of_mem (List.Mem.tail _ (mem_baseOf (hb ▸ h)))) (.failed hldrsh)
  | ldrd c p u w rn rd off =>
    obtain ⟨-, -, -, -, hldrd, -⟩ := isThumb_half c p u w rn rd off
    unfold exec
    exact after_onlyIfA (after_ifPassed (after_transferHalfAt fun x _ hb =>
      leaves_doLdrd hldrd (List.Mem.head _) (List.Mem.tail _ (List.Mem.head _))
        fun h => List.mem_map_of_mem (List.Mem.tail _ (List.Mem.tail _ (mem_baseOf (hb ▸ h))))) (.failed hldrd))
  | strd c p u w rn rd off =>
    obtain ⟨-, -, -, -, -, hstrd⟩ := isThumb_half c p u w rn rd off
    unfold exec
    exact after_onlyIfA (after_ifPassed (after_transferHalfAt fun x ha hb => leaves_doStrd hstrd
      (fun h => List.mem_map_of_mem (mem_baseOf (hb ▸ h))) (ha ▸ List.Mem.head _)
      (ha ▸ List.Mem.tail _ (List.Mem.head _))) (.failed hstrd))
  | ldm => exact leaves_execLdm
  | ldmS => exact leaves_execLdmS
  | stm c p u w rn list | stmS c p u w rn list =>
    unfold exec
    exact after_ifPassed (after_ite (fun _ => trivial) fun _ => .next 4#32
      (Working.storeBlock rfl fun hw => List.mem_map_of_mem (by simp [Instr.dests, hw])) rfl) (.failed rfl)
  | b =>
    unfold exec
    exact after_ifPassed (.jump _ _ .start rfl) (.failed rfl)
  | bl =>
    unfold exec
    exact after_ifPassed (.jump _ _ (Working.start.setGpr _ (List.Mem.head _)) rfl) (.failed rfl)
  | swi =>
    unfold exec
    exact after_ifPassed (leaves_softwareInterrupt rfl rfl rfl) (.failed rfl)
  | tLslImm | tLsrImm | tAsrImm | tAddReg | tSubReg | tAddImm3 | tSubImm3 | tMovImm | tAddImm8 | tSubImm8 | tAnd
  | tEor | tLslReg | tLsrReg | tAsrReg | tAdc | tSbc | tRor | tNeg | tOrr | tBic | tMvn =>
    unfold exec
    exact leaves_thumbWrite _ _ .start rfl (List.Mem.head _) rfl
  | tMul =>
    unfold exec
    exact leaves_thumbWrite _ _ (Working.start.spendCarry true) rfl (List.Mem.head _) rfl
  | tCmpImm | tTst | tCmpReg | tCmn | tCmpHi =>
    unfold exec
    exact leaves_thumbFlags _ rfl rfl
  | tAddHi | tMovHi =>
    unfold exec
    exact leaves_thumbHighWrite _ rfl (List.Mem.head _)
  | tAddPc | tAddSp | tAddSpImm =>
    unfold exec
    exact leaves_thumbPlain _ rfl (List.Mem.head _)
  | tBx =>
    unfold exec
    exact .interwork .start _ (.inl rfl)
  | tBlxReg =>
    unfold exec
    exact after_onlyIfA (after_ite (fun _ => trivial) fun _ =>
      .interwork (Working.start.setGpr _ (by exact List.Mem.head _)) _ (.inl rfl))
  | tLdrPc | tLdrReg | tLdrImm | tLdrSp =>
    unfold exec
    exact leaves_thumbLoad Working.start.loadWordRotated rfl (List.Mem.head _)
  | tLdrbReg | tLdrbImm =>
    unfold exec
    exact leaves_thumbLoad Working.start.loadByte rfl (List.Mem.head _)
  | tLdrhReg | tLdrhImm =>
    unfold exec
    exact leaves_thumbLoad Working.start.loadHalf rfl (List.Mem.head _)
  | tLdsbReg =>
    unfold exec
    exact leaves_thumbLoad Working.start.loadSignedByte rfl (List.Mem.head _)
  | tLdshReg =>
    unfold exec
    exact leaves_thumbLoad Working.start.loadSignedHalf rfl (List.Mem.head _)
  | tStrReg | tStrbReg | tStrhReg | tStrbImm =>
    unfold exec
    exact leaves_thumbStore rfl (List.Mem.head _)
  | tStrImm | tStrSp =>
    unfold exec
    exact leaves_thumbStore rfl (wordOffset_eq _ ▸ List.Mem.head _)
  | tStrhImm =>
    unfold exec
    exact leaves_thumbStore rfl (halfOffset_eq _ ▸ List.Mem.head _)
  | tPush | tStmia =>
    unfold exec
    exact after_ite (fun _ => trivial) fun _ => .next 2#32 (Working.storeBlock rfl fun _ => List.Mem.head _) rfl
  | tPop => exact leaves_execTPop
  | tLdmia => exact leaves_execTLdmia
  | tBkpt => trivial
  | tBcond =>
    unfold exec
    exact after_ite (fun _ => .jump _ _ .start rfl) fun _ => .next 2#32 .start rfl
  | tSwi =>
    unfold exec
    exact leaves_softwareInterrupt rfl rfl rfl
  | tB =>
    unfold exec
    exact .jump _ _ .start rfl
  | tBlPrefix =>
    unfold exec
    exact .work_next .start (f := (·.setGpr 14#4 _)) (Work.start.setGpr _ (List.Mem.head _)) rfl rfl
  | tBlSuffix =>
    unfold exec
    exact .jump _ _ (Working.start.setGpr _ (List.Mem.head _)) rfl

end Sys2Proof.Machine

namespace Sys2Proof.Machine

/-! ### The processor after each way of leaving -/

theorem State.jumpTo_cpu (s : State) (t : Bool) (v : Word) : (s.jumpTo t v).cpu =
    { s.cpu with
      pc := alignPc t v
      ts := s.cpu.ts + s.waitCost (alignPc t v) (if t then .s16 else .s32)
      lastbus := none } := State.withCpu_cpu ..

theorem State.enterException_cpu (s : State) (m : Mode) (off lr : Word) : (s.enterException m off lr).cpu =
    { s.cpu.setBankReg m.bits 14#4 lr with
      spsr := s.cpu.spsr.put m.bits s.cpu.cpsr
      cpsr := { s.cpu.cpsr with m := m.bits, t := false, i := true }
      pc := Config.excBase s.cur + off
      lastbus := none } := State.withCpu_cpu ..

theorem State.enterSwi_cpu (s : State) (lr : Word) : (s.enterSwi lr).cpu =
    (s.enterException .svc 0x08#32 lr).cpu.charge (s.waitCost (Config.excBase s.cur + 0x08#32) .s32) :=
  State.withCpu_cpu ..

section
variable {i : Instr} {s t : State}

/-- What the host's handler leaves of T, of the mode's legality, and where it goes on (R410). -/
theorem handled_cpu (s : State) (n : BitVec 8) (next : Word) {x : Asked} (hx : s.ask (.bios s.cur n) = x) :
    let t := ((x.s.applyCalls .bios x.reply.calls).applyHostWrites x.reply.host).withCpu fun p => { p with pc := next }
    t.cpu.cpsr.t = s.cpu.cpsr.t ∧ (modeValid s.cpu.cpsr.m = true → modeValid t.cpu.cpsr.m = true) ∧ t.cpu.pc = next := by
  subst hx
  have h := hostKeeps_applyHostWrites ((s.ask (.bios s.cur n)).s.applyCalls .bios (s.ask (.bios s.cur n)).reply.calls)
    (s.ask (.bios s.cur n)).reply.host
  have hc := (sameRegs_asked s (.bios s.cur n) .bios).cpsr
  dsimp only
  rw [State.withCpu_cpu]
  exact ⟨h.t.trans (by rw [hc]), fun hm => h.mode (by rw [hc]; exact hm), rfl⟩

theorem Instr.writesFlags_of_restoresStatus {i : Instr} (h : i.restoresStatus = true) : i.writesFlags = true := by
  cases i with
  | ldmS => exact h
  | andImm | eorImm | subImm | rsbImm | addImm | adcImm | sbcImm | rscImm | orrImm | movImm | bicImm | mvnImm
  | andRsi | eorRsi | subRsi | rsbRsi | addRsi | adcRsi | sbcRsi | rscRsi | orrRsi | movRsi | bicRsi | mvnRsi
  | andRsr | eorRsr | subRsr | rsbRsr | addRsr | adcRsr | sbcRsr | rscRsr | orrRsr | movRsr | bicRsr | mvnRsr =>
    exact (Bool.and_eq_true_iff.1 h).1
  | _ => cases h

/-! ### Mode, masks and T -/

theorem Leaves.mode_masks (h : Leaves i s t) (hswi : i.isSwi = false) (hmsr : i.msrSelects 0 = false)
    (hres : i.restoresStatus = false) :
    t.cpu.cpsr.m = s.cpu.cpsr.m ∧ t.cpu.cpsr.i = s.cpu.cpsr.i ∧ t.cpu.cpsr.f = s.cpu.cpsr.f := by
  cases h with
  | next n h => rw [State.withCpu_cpu]; exact ⟨h.work.mode, h.work.masks⟩
  | jump b v h => rw [State.jumpTo_cpu]; exact ⟨h.work.mode, h.work.masks⟩
  | exchange b v h => rw [State.jumpTo_cpu, State.withCpu_cpu]; exact ⟨h.work.mode, h.work.masks⟩
  | restore saved v h means => rw [hres] at means; cases means
  | msr new _ _ _ control => rw [State.withCpu_cpu]; exact control hmsr
  | swi lr means => rw [hswi] at means; cases means
  | handled n _ means => rw [hswi] at means; cases means

theorem Leaves.modeValid (h : Leaves i s t) (hm : modeValid s.cpu.cpsr.m = true) : modeValid t.cpu.cpsr.m = true := by
  cases h with
  | next n h => rw [State.withCpu_cpu]; exact h.work.mode ▸ hm
  | jump b v h => rw [State.jumpTo_cpu]; exact h.work.mode ▸ hm
  | exchange b v h => rw [State.jumpTo_cpu, State.withCpu_cpu]; exact h.work.mode ▸ hm
  | restore saved v h _ hv => rw [State.jumpTo_cpu, State.withCpu_cpu]; exact hv
  | msr new _ _ hv => rw [State.withCpu_cpu]; exact hv
  | swi lr => rw [State.enterSwi_cpu, State.enterException_cpu]; exact modeValid_bits .svc
  | handled n => exact (handled_cpu s n _ rfl).2.1 hm

theorem Leaves.thumbBit (h : Leaves i s t) (ht : t.cpu.cpsr.t ≠ s.cpu.cpsr.t) :
    i.exchanges = true ∨ (i.loadsPc = true ∧ s.cur = .A) ∨ i.restoresStatus = true ∨ i.isSwi = true := by
  cases h with
  | next n h => rw [State.withCpu_cpu] at ht; exact absurd h.work.t ht
  | jump b v h => rw [State.jumpTo_cpu] at ht; exact absurd h.work.t ht
  | exchange b v h means => exact means.imp_right .inl
  | restore saved v h means => exact .inr (.inr (.inl means))
  | msr new _ hnew => rw [State.withCpu_cpu] at ht; exact absurd hnew ht
  | swi lr means => exact .inr (.inr (.inr means))
  | handled n _ means => exact .inr (.inr (.inr means))

/-- Settles O21: no other way of leaving touches the mode or a mask. -/
theorem modeChangesByItsMeans : Obligations.ModeChangesByItsMeans := fun i s _ e =>
  have h := (exec_leaves i s).elim e
  ⟨h.mode_masks, h.modeValid⟩

/-- Settles O22: no other way of leaving touches T. -/
theorem thumbBitChangesByItsMeans : Obligations.ThumbBitChangesByItsMeans := fun i s _ e ht =>
  ((exec_leaves i s).elim e).thumbBit ht

/-! ### The flags -/

theorem Leaves.sticky (h : Leaves i s t) (hh : i.handled s = false) (hmsr : i.msrSelects 3 = false)
    (hres : i.restoresStatus = false) :
    (s.cpu.cpsr.q = true → t.cpu.cpsr.q = true) ∧ (i.setsQ = false → t.cpu.cpsr.q = s.cpu.cpsr.q) := by
  cases h with
  | next n h => rw [State.withCpu_cpu]; exact ⟨h.work.sticky, h.work.q⟩
  | jump b v h => rw [State.jumpTo_cpu]; exact ⟨h.work.sticky, h.work.q⟩
  | exchange b v h => rw [State.jumpTo_cpu, State.withCpu_cpu]; exact ⟨h.work.sticky, h.work.q⟩
  | restore saved v h means => rw [hres] at means; cases means
  | msr new _ _ _ _ flags =>
    have hq := (flags hmsr).1
    rw [State.withCpu_cpu]
    exact ⟨hq.trans, fun _ => hq⟩
  | swi lr => rw [State.enterSwi_cpu, State.enterException_cpu]; exact ⟨id, fun _ => rfl⟩
  | handled n hn => rw [hh] at hn; cases hn

theorem Leaves.flags (h : Leaves i s t) (hh : i.handled s = false) (hw : i.writesFlags = false) :
    t.cpu.cpsr.flags = s.cpu.cpsr.flags := by
  cases h with
  | next n h => rw [State.withCpu_cpu]; exact h.work.flags hw
  | jump b v h => rw [State.jumpTo_cpu]; exact h.work.flags hw
  | exchange b v h => rw [State.jumpTo_cpu, State.withCpu_cpu]; exact h.work.flags hw
  | restore saved v h means => rw [Instr.writesFlags_of_restoresStatus means] at hw; cases hw
  | msr new _ _ _ _ flags means => rw [State.withCpu_cpu]; exact (flags (means ▸ hw)).2
  | swi lr => rw [State.enterSwi_cpu, State.enterException_cpu]; rfl
  | handled n hn => rw [hh] at hn; cases hn

/-- Settles O23: Q and the four flags by the ways of leaving. -/
theorem flagsChangeByTheirMeans : Obligations.FlagsChangeByTheirMeans := by
  intro i s t e hh
  have h := (exec_leaves i s).elim e
  refine ⟨h.sticky hh, fun hw => ?_⟩
  have hf := h.flags hh hw
  simpa only [Psr.flags, Flags.mk.injEq] using hf

/-! ### The register file and the saved status words -/

theorem Leaves.phys (h : Leaves i s t) (hh : i.handled s = false) {k : Fin 31} (hk : k ∉ i.places s) :
    t.cpu.phys.get k = s.cpu.phys.get k := by
  cases h with
  | next n h => rw [State.withCpu_cpu]; exact h.work.phys k hk
  | jump b v h => rw [State.jumpTo_cpu]; exact h.work.phys k hk
  | exchange b v h => rw [State.jumpTo_cpu, State.withCpu_cpu]; exact h.work.phys k hk
  | restore saved v h => rw [State.jumpTo_cpu, State.withCpu_cpu]; exact h.work.phys k hk
  | msr new => rw [State.withCpu_cpu]; rfl
  | swi lr means =>
    have hlr : bank Mode.svc.bits 14#4 ∈ i.places s := by
      cases i with
      | swi | tSwi => exact List.Mem.head _
      | _ => cases means
    rw [State.enterSwi_cpu, State.enterException_cpu]
    exact ProcState.setBankReg_phys_of_ne fun e => hk (e ▸ hlr)
  | handled n hn => rw [hh] at hn; cases hn

theorem Instr.not_writesSpsr_of_swi (h : i.isSwi = true) : i.writesSpsr = false := by
  cases i with
  | swi | tSwi => rfl
  | _ => cases h

theorem Instr.not_swi_of_writesSpsr (h : i.writesSpsr = true) : i.isSwi = false :=
  Bool.eq_false_iff.2 fun hs => by rw [Instr.not_writesSpsr_of_swi hs] at h; cases h

/-- Beside the software interrupt no way of leaving writes a saved status word. -/
theorem Leaves.spsr_of_not_swi (h : Leaves i s t) (hswi : i.isSwi = false) :
    (i.writesSpsr = false → t.cpu.spsr = s.cpu.spsr) ∧
      ∀ m, m ≠ s.cpu.cpsr.m → t.cpu.spsr.get? m = s.cpu.spsr.get? m := by
  cases h with
  | next n h => rw [State.withCpu_cpu]; exact ⟨h.work.spsr, h.work.spsrs⟩
  | jump b v h => rw [State.jumpTo_cpu]; exact ⟨h.work.spsr, h.work.spsrs⟩
  | exchange b v h => rw [State.jumpTo_cpu, State.withCpu_cpu]; exact ⟨h.work.spsr, h.work.spsrs⟩
  | restore saved v h => rw [State.jumpTo_cpu, State.withCpu_cpu]; exact ⟨h.work.spsr, h.work.spsrs⟩
  | msr new => rw [State.withCpu_cpu]; exact ⟨fun _ => rfl, fun _ _ => rfl⟩
  | swi lr means => rw [hswi] at means; cases means
  | handled n _ means => rw [hswi] at means; cases means

theorem Leaves.spsr_of_swi (h : Leaves i s t) (hswi : i.isSwi = true) (hh : i.handled s = false) {m : BitVec 5}
    (hm : m ≠ Mode.svc.bits) : t.cpu.spsr.get? m = s.cpu.spsr.get? m := by
  have hw := Instr.not_writesSpsr_of_swi hswi
  cases h with
  | next n h => rw [State.withCpu_cpu]; exact congrArg (·.get? m) (h.work.spsr hw)
  | jump b v h => rw [State.jumpTo_cpu]; exact congrArg (·.get? m) (h.work.spsr hw)
  | exchange b v h => rw [State.jumpTo_cpu, State.withCpu_cpu]; exact congrArg (·.get? m) (h.work.spsr hw)
  | restore saved v h => rw [State.jumpTo_cpu, State.withCpu_cpu]; exact congrArg (·.get? m) (h.work.spsr hw)
  | msr new => rw [State.withCpu_cpu]; rfl
  | swi lr => rw [State.enterSwi_cpu, State.enterException_cpu]; exact SpsrBank.get?_put_of_ne _ _ hm
  | handled n hn => rw [hh] at hn; cases hn

/-- Settles O24: registers and saved status words by the ways of leaving. -/
theorem registerFrame : Obligations.RegisterFrame := by
  intro i s t e
  have h := (exec_leaves i s).elim e
  exact ⟨fun k hh => h.phys hh, fun hswi => (h.spsr_of_not_swi hswi).1,
    fun m hw => (h.spsr_of_not_swi (Instr.not_swi_of_writesSpsr hw)).2 m, fun m hswi hh => h.spsr_of_swi hswi hh⟩

/-! ### Memory and beyond -/

/-- Where nothing has been put to a collaborator the world is as it was, whatever the way of leaving. -/
theorem Leaves.world (h : Leaves i s t) (ho : t.outbox = s.outbox) : World i s t := by
  cases h with
  | next n h => exact (h.world (congrArg List.length ho)).withCpu rfl
  | jump b v h => exact (h.world (congrArg List.length ho)).withCpu rfl
  | exchange b v h => exact ((h.world (congrArg List.length ho)).withCpu rfl).withCpu rfl
  | restore saved v h => exact ((h.world (congrArg List.length ho)).withCpu rfl).withCpu rfl
  | msr new => exact World.start.withCpu rfl
  | swi lr => exact (World.start.withCpu rfl).withCpu rfl
  | handled n =>
    have hlen := congrArg List.length ho
    rw [State.withCpu_outbox, State.applyHostWrites_outbox, State.applyCalls_outbox, State.ask_outbox,
      List.length_cons] at hlen
    omega

/-- Settles O25: the world by the ways of leaving; what passes no collaborator either is kept by every instruction. -/
theorem memoryFrame : Obligations.MemoryFrame := by
  intro i s t e ho
  have h := ((exec_leaves i s).elim e).world ho
  have k := (exec_keeps i s).elim e
  refine ⟨fun p a ha => ?_, h.maps, h.waits, h.irqs, h.events, h.nextSeq, k.systemTs, k.cfg, h.inbox, k.cur, k.phase, h.ir,
    h.halted, k.other⟩
  unfold State.byteAt
  rw [h.maps]
  cases hc : cellIn (s.maps.get p) a with
  | none => rfl
  | some c => exact congrArg some (h.mem c (ha c hc))

end

end Sys2Proof.Machine

namespace Sys2Proof.Machine

/-! ### A decoded instruction is of the set that T has selected (R90) -/

/-- What decodes is of the Thumb set, or not, as t says. -/
def OfSet (t : Bool) : Except DecodeError Instr → Prop
  | .ok i => isThumb i = t
  | .error _ => True

theorem ofSet_ite {c : Prop} [Decidable c] {t : Bool} {r r' : Except DecodeError Instr} (h : OfSet t r) (h' : OfSet t r') :
    OfSet t (if c then r else r') := by
  split
  · exact h
  · exact h'

theorem ofSet_onlyOnA {t : Bool} {p : Proc} {i : Instr} (h : isThumb i = t) : OfSet t (onlyOnA p i) := by
  cases p
  · exact h
  · trivial

theorem isThumb_decodeDpImm (op : BitVec 4) (c : Cond) (sf : Bool) (rn rd : Reg) (rot : BitVec 4) (imm8 : BitVec 8) :
    isThumb (decodeDpImm op c sf rn rd rot imm8) = false := by
  unfold decodeDpImm; split <;> rfl

theorem isThumb_decodeDpRsi (op : BitVec 4) (c : Cond) (sf : Bool) (rn rd : Reg) (sh : BitVec 5) (ty : ShiftType) (rm : Reg) :
    isThumb (decodeDpRsi op c sf rn rd sh ty rm) = false := by
  unfold decodeDpRsi; split <;> rfl

theorem isThumb_decodeDpRsr (op : BitVec 4) (c : Cond) (sf : Bool) (rn rd rs : Reg) (ty : ShiftType) (rm : Reg) :
    isThumb (decodeDpRsr op c sf rn rd rs ty rm) = false := by
  unfold decodeDpRsr; split <;> rfl

theorem ofSet_decodeMultiplySpace (c : Cond) (w : Word) : OfSet false (decodeMultiplySpace c w) := by
  refine ofSet_ite (ofSet_ite rfl rfl) (ofSet_ite ?_ (ofSet_ite (ofSet_ite rfl rfl) trivial))
  split <;> rfl

theorem ofSet_decodeHalfwordSpace (p : Proc) (c : Cond) (w : Word) : OfSet false (decodeHalfwordSpace p c w) := by
  obtain ⟨hldrh, hstrh, hldrsb, hldrsh, hldrd, hstrd⟩ := isThumb_half c (w.getLsbD 24) (w.getLsbD 23) (w.getLsbD 21)
    (w.extractLsb' 16 4) (w.extractLsb' 12 4)
    (if w.getLsbD 22 then .imm (w.extractLsb' 8 4 ++ w.extractLsb' 0 4) else .reg (w.extractLsb' 0 4))
  exact ofSet_ite trivial (ofSet_ite (ofSet_ite hldrh (ofSet_ite hldrsb hldrsh))
    (ofSet_ite hstrh (ofSet_ite (ofSet_onlyOnA hldrd) (ofSet_onlyOnA hstrd))))

theorem isThumb_decodeSignedMultiply (c : Cond) (w : Word) : isThumb (decodeSignedMultiply c w) = false := by
  unfold decodeSignedMultiply
  dsimp only
  repeat' split
  all_goals rfl

theorem ofSet_decodeMiscSpace (p : Proc) (c : Cond) (w : Word) : OfSet false (decodeMiscSpace p c w) := by
  refine ofSet_ite ?_ (ofSet_ite (ofSet_ite rfl (ofSet_ite (ofSet_onlyOnA rfl) trivial))
    (ofSet_ite (ofSet_ite (ofSet_onlyOnA rfl) trivial) (ofSet_ite ?_ (ofSet_ite (ofSet_ite (ofSet_onlyOnA rfl) trivial)
      (ofSet_ite (ofSet_onlyOnA (isThumb_decodeSignedMultiply c w)) trivial)))))
  · split <;> rfl
  · split <;> exact ofSet_onlyOnA rfl

theorem isThumb_decodeTransferImm (c : Cond) (w : Word) : isThumb (decodeTransferImm c w) = false := by
  unfold decodeTransferImm; dsimp only; split <;> rfl

theorem isThumb_decodeTransferReg (c : Cond) (w : Word) : isThumb (decodeTransferReg c w) = false := by
  unfold decodeTransferReg; dsimp only; split <;> rfl

theorem isThumb_decodeBlock (c : Cond) (w : Word) : isThumb (decodeBlock c w) = false := by
  unfold decodeBlock; dsimp only; split <;> rfl

theorem isThumb_decodeCoprocessorTransfer (c : Cond) (w : Word) : isThumb (decodeCoprocessorTransfer c w) = false := by
  unfold decodeCoprocessorTransfer; split <;> rfl

theorem isThumb_decodeSystemSpace (c : Cond) (w : Word) : isThumb (decodeSystemSpace c w) = false := by
  unfold decodeSystemSpace
  dsimp only
  repeat' split
  all_goals rfl

theorem ofSet_decodeArm (p : Proc) (w : Word) : OfSet false (decodeArm p w) := by
  unfold decodeArm
  split
  · exact ofSet_ite (ofSet_onlyOnA rfl) (ofSet_ite (ofSet_onlyOnA rfl) trivial)
  · next c _ =>
    split
    · exact ofSet_ite (ofSet_decodeMultiplySpace c w) (ofSet_ite (ofSet_decodeHalfwordSpace p c w)
        (ofSet_ite (ofSet_decodeMiscSpace p c w) (ofSet_ite (isThumb_decodeDpRsi ..) (isThumb_decodeDpRsr ..))))
    · exact ofSet_ite (ofSet_ite rfl trivial) (isThumb_decodeDpImm ..)
    · exact isThumb_decodeTransferImm c w
    · exact ofSet_ite trivial (isThumb_decodeTransferReg c w)
    · exact isThumb_decodeBlock c w
    · exact ofSet_ite rfl rfl
    · exact isThumb_decodeCoprocessorTransfer c w
    · exact isThumb_decodeSystemSpace c w

theorem ofSet_decodeThumbHigh (p : Proc) (h : Half) : OfSet true (decodeThumbHigh p h) := by
  unfold decodeThumbHigh
  dsimp only
  split
  · rfl
  · rfl
  · rfl
  · exact ofSet_ite (ofSet_onlyOnA rfl) rfl

theorem ofSet_decodeThumb010 (p : Proc) (h : Half) : OfSet true (decodeThumb010 p h) := by
  refine ofSet_ite ?_ (ofSet_ite (ofSet_decodeThumbHigh p h) (ofSet_ite rfl ?_))
  · show isThumb (decodeThumbAlu ..) = true
    unfold decodeThumbAlu; split <;> rfl
  · show isThumb (decodeThumbTransferReg h) = true
    unfold decodeThumbTransferReg; dsimp only; split <;> rfl

theorem ofSet_decodeThumbMisc (p : Proc) (h : Half) : OfSet true (decodeThumbMisc p h) :=
  ofSet_ite rfl (ofSet_ite (ofSet_ite rfl rfl) (ofSet_ite (ofSet_onlyOnA rfl) trivial))

theorem ofSet_decodeThumbCond (h : Half) : OfSet true (decodeThumbCond h) := by
  unfold decodeThumbCond
  split
  · rfl
  · trivial
  · rfl

theorem ofSet_decodeThumb (p : Proc) (h : Half) : OfSet true (decodeThumb p h) := by
  refine ofSet_ite (ofSet_ite ?_ (ofSet_onlyOnA rfl)) ?_
  · cases p <;> trivial
  · split
    case h_3 => exact ofSet_decodeThumb010 p h
    case h_6 =>
      split
      · rfl
      · rfl
      · exact ofSet_decodeThumbMisc p h
    case h_7 =>
      split
      · rfl
      · rfl
      · exact ofSet_decodeThumbCond h
    all_goals
      repeat' split
      all_goals rfl

theorem isThumb_of_decodeFetched {p : Proc} {t : Bool} {w : Word} {i : Instr} (h : decodeFetched p t w = .ok i) :
    isThumb i = t := by
  have hset : OfSet t (decodeFetched p t w) := by
    cases t
    · exact ofSet_decodeArm p w
    · exact ofSet_decodeThumb p _
  rw [h] at hset
  exact hset

end Sys2Proof.Machine

namespace Sys2Proof.Machine

/-! ### Alignment as arithmetic -/

/-- Clearing the low n bits of a word rounds it down to a multiple of 2 ^ n. -/
theorem toNat_and_shiftLeft_allOnes (x : Word) (n : Nat) :
    (x &&& (BitVec.allOnes 32 <<< n)).toNat = x.toNat / 2 ^ n * 2 ^ n := by
  have h : x &&& (BitVec.allOnes 32 <<< n) = (x >>> n) <<< n := by
    ext i hi
    simp only [BitVec.getElem_and, BitVec.getElem_shiftLeft, BitVec.getElem_allOnes, BitVec.getElem_ushiftRight]
    by_cases hlt : i < n
    · simp [hlt]
    · simp [hlt, Nat.add_sub_cancel' (Nat.le_of_not_lt hlt), BitVec.getLsbD_eq_getElem hi]
  rw [h, BitVec.toNat_shiftLeft, BitVec.toNat_ushiftRight, Nat.shiftRight_eq_div_pow, Nat.shiftLeft_eq,
    Nat.mod_eq_of_lt ((Nat.div_mul_le_self _ _).trans_lt x.isLt)]

theorem toNat_clear_bit0 (x : Word) : (x &&& 0xFFFFFFFE#32).toNat = x.toNat / 2 * 2 :=
  toNat_and_shiftLeft_allOnes x 1

theorem toNat_clear_bits01 (x : Word) : (x &&& 0xFFFFFFFC#32).toNat = x.toNat / 4 * 4 :=
  toNat_and_shiftLeft_allOnes x 2

/-- The length of an instruction, to which a pc is aligned. -/
def codeBytes (t : Bool) : Nat := if t then 2 else 4

theorem alignPc_eq_self_iff (t : Bool) (v : Word) : alignPc t v = v ↔ v.toNat % codeBytes t = 0 := by
  rw [BitVec.toNat_eq]
  cases t
  · rw [alignPc, if_neg Bool.false_ne_true, toNat_clear_bits01, codeBytes, if_neg Bool.false_ne_true]; omega
  · rw [alignPc, if_pos rfl, toNat_clear_bit0, codeBytes, if_pos rfl]; omega

theorem alignPc_alignPc (t : Bool) (v : Word) : alignPc t (alignPc t v) = alignPc t v := by
  cases t
  · exact BitVec.and_assoc ..
  · exact BitVec.and_assoc ..

/-- The next instruction of an aligned one is aligned. -/
theorem alignPc_next {t : Bool} {v : Word} (h : alignPc t v = v) :
    alignPc t (v + if t then 2#32 else 4#32) = v + if t then 2#32 else 4#32 := by
  rw [alignPc_eq_self_iff] at h ⊢
  cases t
  · simp only [codeBytes, BitVec.toNat_add, Bool.false_eq_true, if_false, BitVec.toNat_ofNat] at h ⊢; omega
  · simp only [codeBytes, BitVec.toNat_add, if_true, BitVec.toNat_ofNat] at h ⊢; omega

theorem alignPc_excBase_swi (p : Proc) : alignPc false (Config.excBase p + 0x08#32) = Config.excBase p + 0x08#32 := by
  cases p
  · rfl
  · rfl

theorem alignPc_excBase_irq (p : Proc) : alignPc false (Config.excBase p + 0x18#32) = Config.excBase p + 0x18#32 := by
  cases p
  · rfl
  · rfl

/-! ### Legality of the running processor -/

theorem ProcState.Legal.of_same {p q : ProcState} (h : p.Legal) (hc : q.cpsr = p.cpsr) (hpc : q.pc = p.pc) : q.Legal := by
  unfold ProcState.Legal
  rw [hc, hpc]
  exact h

section
variable {i : Instr} {s t : State}

/-- Whatever the way of leaving, the pc is aligned for the set in force if the instruction was of that set. -/
theorem Leaves.aligned (h : Leaves i s t) (hpc : alignPc s.cpu.cpsr.t s.cpu.pc = s.cpu.pc) (hset : isThumb i = s.cpu.cpsr.t) :
    alignPc t.cpu.cpsr.t t.cpu.pc = t.cpu.pc := by
  cases h with
  | @next u n h hn =>
    rw [State.withCpu_cpu]
    show alignPc u.cpu.cpsr.t (u.cpu.pc + n) = u.cpu.pc + n
    rw [h.work.t, h.work.pc, hn, hset]
    exact alignPc_next hpc
  | @jump u b v h hb =>
    rw [State.jumpTo_cpu]
    show alignPc u.cpu.cpsr.t (alignPc b v) = alignPc b v
    rw [h.work.t, ← hset, hb]
    exact alignPc_alignPc ..
  | exchange b v h => rw [State.jumpTo_cpu, State.withCpu_cpu]; exact alignPc_alignPc ..
  | restore saved v h => rw [State.jumpTo_cpu, State.withCpu_cpu]; exact alignPc_alignPc ..
  | msr new arm hnew =>
    rw [State.withCpu_cpu]
    show alignPc new.t (s.cpu.pc + 4#32) = s.cpu.pc + 4#32
    have ht : s.cpu.cpsr.t = false := hset.symm.trans arm
    rw [ht] at hpc hnew
    rw [hnew]
    exact alignPc_next hpc
  | swi lr => rw [State.enterSwi_cpu, State.enterException_cpu]; exact alignPc_excBase_swi _
  | handled n =>
    obtain ⟨ht, -, hnext⟩ := handled_cpu s n (s.cpu.pc + if isThumb i then 2#32 else 4#32) rfl
    rw [ht, hnext, hset]
    exact alignPc_next hpc

theorem Leaves.legal (h : Leaves i s t) (hs : s.cpu.Legal) (hset : isThumb i = s.cpu.cpsr.t) : t.cpu.Legal :=
  ⟨h.modeValid hs.1, h.aligned hs.2 hset⟩

end

theorem State.enterIrq_legal (s : State) : s.enterIrq.cpu.Legal := by
  unfold State.enterIrq State.charge
  rw [State.withCpu_cpu, State.enterException_cpu]
  exact ⟨modeValid_bits .irq, alignPc_excBase_irq _⟩

theorem State.pollIrq_legal {s : State} (h : s.cpu.Legal) : s.pollIrq.cpu.Legal := by
  unfold State.pollIrq
  split
  · exact State.enterIrq_legal s
  · exact h

/-! ### A processor's step -/

/-- What a step of the running processor comes to: no operation's guarantee broken, time spent, the processor legal still. -/
structure Stepped (s t : State) : Prop extends Keeps s t where
  later : s.cpu.ts < t.cpu.ts
  legal : s.cpu.Legal → t.cpu.Legal

/-- Keeps says of the running processor's clock that it never goes back. -/
theorem Keeps.cpu_ts {s t : State} (h : Keeps s t) : s.cpu.ts ≤ t.cpu.ts := by
  unfold State.cpu
  rw [h.cur]
  exact h.ts

/-- Something that spends time, and then anything that keeps what it must. -/
theorem Stepped.trans {s u t : State} (h : Stepped s u) (k : Keeps u t) (legal : u.cpu.Legal → t.cpu.Legal) : Stepped s t where
  toKeeps := h.toKeeps.trans k
  later := h.later.trans_le k.cpu_ts
  legal := legal ∘ h.legal

theorem stepped_charge (s : State) (c : Cycles) : Stepped s (s.charge c.count) where
  toKeeps := keeps_charge s _
  later := by
    unfold State.charge
    rw [State.withCpu_cpu]
    exact Nat.lt_add_of_pos_right (Nat.succ_pos _)
  legal := fun h => by
    unfold State.charge
    rw [State.withCpu_cpu]
    exact h

theorem stepped_haltedStep (s : State) : Stepped s s.haltedStep := by
  have h := stepped_charge s (s.cfg.haltQuantum.get s.cur)
  have hwake : ∀ u : State, Keeps u u.wake ∧ (u.cpu.Legal → u.wake.cpu.Legal) := fun u =>
    ⟨keeps_withCpu u _ (le_refl _), fun hu => by unfold State.wake; rw [State.withCpu_cpu]; exact hu⟩
  unfold State.haltedStep
  dsimp only
  split
  · split
    · exact (h.trans (hwake _).1 (hwake _).2).trans (keeps_enterIrq _) fun _ => State.enterIrq_legal _
    · exact h.trans (hwake _).1 (hwake _).2
  · exact h

theorem stepped_memRead (s : State) (a : Word) (w : Width) (q : Bool) : Stepped s (s.memRead a w q).s where
  toKeeps := keeps_memRead s a w q
  later := by
    have h := State.account_ts_lt s (w.align a) w q
    have k := (keeps_busRead (s.account (w.align a) w q) (w.align a) w).cpu_ts
    exact Nat.lt_of_lt_of_le h k
  legal := fun h => h.of_same (sameRegs_memRead s a w q).cpsr (sameRegs_memRead s a w q).pc

/-- A fetched instruction, executed and polled after (R402): it is of the set that T selects (R90), so its pc stays aligned. -/
theorem stepped_runFetched (s : State) : After (runFetched s.cpu.cpsr.t s.fetch) (Stepped s) := by
  have h : Stepped s (s.fetch.s.withIr s.fetch.v) :=
    (stepped_memRead s _ _ _).trans ⟨rfl, rfl, rfl, rfl, rfl, le_refl _, id, id⟩ id
  have hcpsr : (s.fetch.s.withIr s.fetch.v).cpu.cpsr = s.cpu.cpsr := (sameRegs_memRead s _ _ _).cpsr
  unfold runFetched
  split
  · trivial
  · next i hi =>
    have hset := isThumb_of_decodeFetched hi
    cases e : exec i (s.fetch.s.withIr s.fetch.v) with
    | next u =>
      have leaves := (exec_leaves i _).elim e
      have hu : Stepped s u := h.trans ((exec_keeps i _).elim e) fun hl => leaves.legal hl (by rw [hset, hcpsr])
      exact hu.trans (keeps_pollIrq u) State.pollIrq_legal
    | fault => trivial
    | refused => trivial

theorem stepped_processorStep (s : State) : After s.processorStep (Stepped s) :=
  after_ite (fun _ => stepped_haltedStep s) fun _ => stepped_runFetched s

/-! ### The machine's step -/

/-- Whatever the machine does is a processor's step, the dispatch of an event or the advance of the clock (R401). -/
theorem step_cases {s t : State} (h : step s = .next t) :
    (∃ p, s.action = .run p ∧ Stepped (s.select p) t) ∨ (∃ x, s.action = .dispatch x ∧ t = s.dispatchEvent x) ∨
      s.action = .advance ∧ t = s.advanceClock := by
  unfold step at h
  cases ha : s.action with
  | run p =>
    rw [ha] at h
    exact .inl ⟨p, rfl, (stepped_processorStep _).elim h⟩
  | dispatch x =>
    rw [ha] at h
    cases h
    exact .inr (.inl ⟨x, rfl, rfl⟩)
  | advance =>
    rw [ha] at h
    cases h
    exact .inr (.inr ⟨rfl, rfl⟩)

/-- A step of p, in the places of the two processors. -/
theorem Stepped.places {s t : State} {p : Proc} (h : Stepped (s.select p) t) :
    (s.cpus.get p).ts < (t.cpus.get p).ts ∧ ((s.cpus.get p).Legal → (t.cpus.get p).Legal) ∧
      t.cpus.get p.other = s.cpus.get p.other := by
  have hcpu : t.cpu = t.cpus.get p := congrArg t.cpus.get h.cur
  exact hcpu ▸ ⟨h.later, h.legal, h.other⟩

/-- The state in which the handler of an event is asked. -/
def State.dequeued (s : State) (x : NextEvent) : State :=
  { s with events := s.events.erase x.event, phase := .dispatch x.mark }

/-- A handler's calls write no processor (R407) and break no guarantee. -/
theorem State.dispatchEvent_keeps (s : State) (x : NextEvent) :
    Keeps (s.dequeued x) (s.dispatchEvent x) ∧ (s.dispatchEvent x).cpus = s.cpus := by
  have hsrc : CallSource.event ≠ .write := nofun
  refine ⟨(keeps_ask _ _).trans (keeps_applyCalls _ _ _), (State.applyCalls_cpus hsrc ..).trans ?_⟩
  rw [State.ask_cpus]

theorem eventsOk_dequeued {s : State} (h : EventsOk s) (x : NextEvent) : EventsOk (s.dequeued x) :=
  ⟨h.1.sublist List.erase_sublist, fun e he => h.2 e (List.mem_of_mem_erase he)⟩

/-- Settles O17: the parts of the invariant by what the machine does. -/
theorem stepKeepsInvariant : Obligations.StepKeepsInvariant := by
  intro s t ⟨hmem, hlegal, hevents⟩ h
  obtain ⟨p, -, st⟩ | ⟨x, -, rfl⟩ | ⟨-, rfl⟩ := step_cases h
  · obtain ⟨-, own, other⟩ := st.places
    refine ⟨st.mem hmem, fun q => ?_, st.events hevents⟩
    by_cases hq : q = p
    · exact hq ▸ own (hlegal p)
    · rw [Proc.eq_other_of_ne hq, other]
      exact hlegal _
  · obtain ⟨k, hcpus⟩ := s.dispatchEvent_keeps x
    exact ⟨k.mem hmem, fun q => by rw [hcpus]; exact hlegal q, k.events (eventsOk_dequeued hevents x)⟩
  · exact ⟨hmem, hlegal, hevents⟩

/-- Settles O14: a processor's step spends a cycle at least and leaves the other and the system's clock; no other step
touches a processor. -/
theorem timestampsGrow : Obligations.TimestampsGrow := by
  intro s t h
  obtain ⟨p, ha, st⟩ | ⟨x, ha, rfl⟩ | ⟨ha, rfl⟩ := step_cases h
  · obtain ⟨later, -, other⟩ := st.places
    refine ⟨st.systemTs.ge, fun q hq => ?_, fun hno => absurd ha (hno p)⟩
    cases ha.symm.trans hq
    exact ⟨later, congrArg _ other, st.systemTs⟩
  · obtain ⟨k, hcpus⟩ := s.dispatchEvent_keeps x
    exact ⟨k.systemTs.ge, fun p hp => Action.noConfusion (ha.symm.trans hp), fun _ => hcpus⟩
  · exact ⟨Nat.le_add_right _ _, fun p hp => Action.noConfusion (ha.symm.trans hp), fun _ => rfl⟩

/-- Settles O15: a step of the other processor keeps this one's place, and the other steps keep both. -/
theorem otherProcessorUntouched : Obligations.OtherProcessorUntouched := by
  intro s t p h hp
  obtain ⟨q, ha, st⟩ | ⟨x, -, rfl⟩ | ⟨-, rfl⟩ := step_cases h
  · have hne : p ≠ q := fun e => hp (e ▸ ha)
    rw [Proc.eq_other_of_ne hne]
    exact st.places.2.2
  · rw [(s.dispatchEvent_keeps x).2]
  · rfl

end Sys2Proof.Machine

namespace Sys2Proof.Machine

/-! ### Which registers two modes share (R24, R25) -/

/-- How far beyond the user bank's R8 to R12 those of a mode lie. -/
def Mode.midOffset : Mode → Nat
  | .fiq => 8
  | _ => 0

/-- How far beyond the user bank's R13 and R14 those of a mode lie. -/
def Mode.pairOffset : Mode → Nat
  | .fiq => 8
  | .irq => 10
  | .svc => 12
  | .abt => 14
  | .und => 16
  | .usr | .sys => 0

theorem bankOffset_bits (m : Mode) (n : Nat) : bankOffset m.bits n =
    if n = 13 ∨ n = 14 then m.pairOffset else if 8 ≤ n ∧ n ≤ 12 then m.midOffset else 0 := by
  cases m <;> simp [bankOffset, Mode.bits, Mode.pairOffset, Mode.midOffset]

theorem Mode.midOffset_eq_zero_or (m : Mode) : m.midOffset = 0 ∨ m.midOffset = 8 := by
  cases m <;> decide

theorem Mode.pairOffset_even (m : Mode) : m.pairOffset % 2 = 0 ∧ (m.pairOffset = 0 ∨ 8 ≤ m.pairOffset) := by
  cases m <;> decide

theorem Mode.midOffset_eq_iff (m m' : Mode) : m.midOffset = m'.midOffset ↔ (m = .fiq ↔ m' = .fiq) := by
  cases m <;> cases m' <;> decide

theorem Mode.pairOffset_eq_iff (m m' : Mode) :
    m.pairOffset = m'.pairOffset ↔ m = m' ∨ (m ∈ [Mode.usr, Mode.sys] ∧ m' ∈ [Mode.usr, Mode.sys]) := by
  cases m <;> cases m' <;> decide

/-- The zones R0 to R7, R8 to R12, R13 and R14 of the physical register file do not meet, and within a zone a place tells the
register's number and the offset of its bank. -/
theorem bank_bits_eq_iff (m m' : Mode) {i j : Reg} (hi : i ≠ 15#4) (hj : j ≠ 15#4) : bank m.bits i = bank m'.bits j ↔
    i = j ∧ (i.toNat ≤ 7 ∨ (i.toNat ≤ 12 ∧ m.midOffset = m'.midOffset) ∨ m.pairOffset = m'.pairOffset) := by
  have hsame : m.pairOffset = m'.pairOffset → m.midOffset = m'.midOffset := by
    rw [Mode.pairOffset_eq_iff, Mode.midOffset_eq_iff]
    rintro (rfl | ⟨hm, hm'⟩)
    · exact Iff.rfl
    · constructor
      · rintro rfl; cases hm with | tail _ h => cases h with | tail _ h => cases h
      · rintro rfl; cases hm' with | tail _ h => cases h with | tail _ h => cases h
  have hmid := m.midOffset_eq_zero_or
  have hmid' := m'.midOffset_eq_zero_or
  have hpair := m.pairOffset_even
  have hpair' := m'.pairOffset_even
  have hi15 : i.toNat < 15 := by bv_omega
  have hj15 : j.toNat < 15 := by bv_omega
  rw [Fin.ext_iff, BitVec.toNat_eq]
  show i.toNat + bankOffset m.bits i.toNat = j.toNat + bankOffset m'.bits j.toNat ↔ _
  rw [bankOffset_bits, bankOffset_bits]
  repeat' split
  all_goals omega

/-- Settles O27: a write is read back exactly where the place in the physical register file is the same. -/
theorem registerBanks : Obligations.RegisterBanks := by
  intro p m m' i j v hi hj
  have h := bank_bits_eq_iff m m' hi hj
  rw [Mode.midOffset_eq_iff, Mode.pairOffset_eq_iff] at h
  rw [ProcState.bankReg_setBankReg, if_congr h rfl rfl]

end Sys2Proof.Machine

namespace Sys2Proof.Machine

/-! ### A call that the host's handler takes (R410) -/

section
variable {s : State} {n : BitVec 8} {next : Word}

theorem State.softwareInterrupt_of_handles (h : s.hleHandles n = true) : s.softwareInterrupt n next =
    (((s.ask (.bios s.cur n)).s.applyCalls .bios (s.ask (.bios s.cur n)).reply.calls).applyHostWrites
      (s.ask (.bios s.cur n)).reply.host).withCpu fun p => { p with pc := next } := if_pos h

/-- T and the legality of the mode after a handled call. -/
theorem State.softwareInterrupt_status (h : s.hleHandles n = true) :
    (s.softwareInterrupt n next).cpu.cpsr.t = s.cpu.cpsr.t ∧
      (modeValid s.cpu.cpsr.m = true → modeValid (s.softwareInterrupt n next).cpu.cpsr.m = true) := by
  obtain ⟨ht, hm, -⟩ := handled_cpu s n next rfl
  rw [State.softwareInterrupt_of_handles h]
  exact ⟨ht, hm⟩

theorem exec_handled_status {i : Instr} {t : State} (hi : i.callNumber = some n) (h : s.hleHandles n = true)
    (e : exec i s = .next t) :
    t.cpu.cpsr.t = s.cpu.cpsr.t ∧ (modeValid s.cpu.cpsr.m = true → modeValid t.cpu.cpsr.m = true) := by
  cases i with
  | swi c comment24 =>
    cases hi
    cases hc : condPassed c s.cpu.cpsr with
    | true =>
      rw [exec, execSwi, ifPassed_of_passed hc] at e
      cases e
      exact State.softwareInterrupt_status h
    | false =>
      rw [exec, execSwi, ifPassed_of_failed hc] at e
      cases e
      unfold State.advanceArm
      rw [State.withCpu_cpu]
      exact ⟨rfl, id⟩
  | tSwi value8 =>
    cases hi
    cases e
    exact State.softwareInterrupt_status h
  | _ => cases hi

end

/-- A saved status word is written where the mode has one (R38). -/
theorem SpsrBank.get?_put_bits (b : SpsrBank) (m m' : Mode) (v : Psr) : (b.put m.bits v).get? m'.bits =
    if m' = m ∧ m ≠ .usr ∧ m ≠ .sys then some v else b.get? m'.bits := by
  cases m <;> cases m' <;> rfl

/-- Settles O30: the call is what softwareInterrupt says where the handler takes it, and each host write is its own clause. -/
theorem handledBiosCall : Obligations.HandledBiosCall := by
  refine ⟨fun c comment24 s hc h => ?_, fun value8 s h => ?_, fun i n s t hi h e => exec_handled_status hi h e,
    fun s m m' i j v q n hi _ => ⟨if_neg hi, rfl, rfl, ?_, rfl, rfl⟩⟩
  · rw [exec, execSwi, ifPassed_of_passed hc, State.softwareInterrupt_of_handles h]
  · rw [exec, execTSwi, State.softwareInterrupt_of_handles h]
  · show (s.withCpu fun p => { p with spsr := p.spsr.put m.bits q }).cpu.spsr.get? m'.bits = _
    rw [State.withCpu_cpu]
    exact SpsrBank.get?_put_bits ..

end Sys2Proof.Machine

namespace Sys2Proof.Machine

/-! ### Data processing by its form -/

/-- MOV and MVN have no first operand (R96). -/
def AluOp.readsRn : AluOp → Bool
  | .mov | .mvn => false
  | _ => true

theorem alu_congr {op : AluOp} {a a' : Word} (h : op.readsRn = true → a = a') (b : Word) (c : Bool) (old : Flags) :
    alu op a b c old = alu op a' b c old := by
  cases op with
  | mov | mvn => rfl
  | _ => rw [h rfl]

/-- A data-processing opcode on an operand 2 of any form. -/
def dpForm (op : AluOp) (sf : Bool) (rn rd : Reg) : Operand2 → State → Result
  | .imm rot imm8 => dpImm op sf rn rd rot imm8
  | .rsi sh ty rm => dpRsi op sf rn rd sh ty rm
  | .rsr rs ty rm => dpRsr op sf rn rd rs ty rm

section
variable {op : AluOp} {c : Cond} {sf : Bool} {rn rd : Reg} {s : State}

theorem exec_dpInstr (x : Operand2) (hc : condPassed c s.cpu.cpsr = true) (write : op.isTest = false) :
    exec (dpInstr op c sf rn rd x) s = dpForm op sf (if op.readsRn then rn else 0#4) rd x s := by
  cases x with
  | imm | rsi | rsr =>
    cases op with
    | tst | teq | cmp | cmn => cases write
    | _ => exact ifPassed_of_passed hc _

theorem State.charge_cpu (s : State) (n : Nat) : (s.charge n).cpu = s.cpu.charge n := State.withCpu_cpu ..

/-- What changes nothing in the running processor changes nothing. -/
theorem State.withCpu_eq_self {s : State} {f : ProcState → ProcState} (h : f s.cpu = s.cpu) : s.withCpu f = s := by
  have hput : s.cpus.modify s.cur f = s.cpus := by
    rw [Pair.modify, show f (s.cpus.get s.cur) = s.cpus.get s.cur from h, Pair.put_get]
  exact congrArg (fun x => { s with cpus := x }) hput

theorem State.charge_zero (s : State) : s.charge 0 = s := State.withCpu_eq_self rfl

theorem operandTwo_imm (s : State) (write : op.isTest = false) (rot : BitVec 4) (imm8 : BitVec 8) :
    (⟨rotatedImm rot imm8, s.immCarry op rot imm8⟩ : Shifted) = s.operandTwo (.imm rot imm8) := by
  have hf : op.isFlagsTest = false := by
    cases op with
    | tst | teq => cases write
    | _ => rfl
  rw [State.immCarry, hf]
  rfl

/-- What an opcode other than a test does on its two operands (R160 to R163, R181). -/
theorem dpForm_eq (rn : Reg) {x : Operand2} (write : op.isTest = false) (hx : x.Allowed) : dpForm op sf rn rd x s =
    writeResult sf rd (alu op (s.operandOne rn x) (s.operandTwo x).r (s.operandTwo x).c s.cpu.cpsr.flags)
      (s.charge x.cycles) := by
  cases x with
  | imm rot imm8 =>
    have h0 : s.charge (Operand2.imm rot imm8).cycles = s := State.charge_zero s
    rw [h0, ← operandTwo_imm s write]
    exact if_neg (by simp [write])
  | rsi sh ty rm =>
    have h0 : s.charge (Operand2.rsi sh ty rm).cycles = s := State.charge_zero s
    rw [h0]
    exact if_neg (by simp [write])
  | rsr rs ty rm =>
    have hflags : (s.charge 1).cpu.cpsr.flags = s.cpu.cpsr.flags := by rw [State.charge_cpu]; rfl
    rw [← hflags]
    exact (if_neg hx).trans (if_neg (by simp [write]))

theorem AluOp.isTest_of_not_mem (h : op ∉ [AluOp.tst, .teq, .cmp, .cmn]) : op.isTest = false := by
  cases op with
  | tst | teq | cmp | cmn => exact absurd h (by decide)
  | _ => rfl

/-- A data-processing instruction that writes a result. -/
theorem exec_dpInstr_write {x : Operand2} (hc : condPassed c s.cpu.cpsr = true) (hx : x.Allowed)
    (write : op.isTest = false) : exec (dpInstr op c sf rn rd x) s =
      writeResult sf rd (alu op (s.operandOne rn x) (s.operandTwo x).r (s.operandTwo x).c s.cpu.cpsr.flags)
        (s.charge x.cycles) := by
  rw [exec_dpInstr x hc write, dpForm_eq _ write hx]
  congr 1
  refine alu_congr (fun h => ?_) _ _ _
  rw [if_pos h]

/-! ### Writes of R15 after some cycles, as the statements put them -/

theorem State.jumpTo_charge (s : State) (n : Nat) (t : Bool) (v : Word) :
    (s.charge n).jumpTo t v = s.withCpu fun p => p.jumped t v (s.refill t v + n) := by
  unfold State.jumpTo State.charge
  rw [State.withCpu_withCpu]
  refine State.withCpu_congr ?_
  have hts : s.cpu.ts + n + s.refill t v = s.cpu.ts + (s.refill t v + n) := by omega
  exact congrArg (fun ts => { s.cpu with pc := alignPc t v, ts := ts, lastbus := none }) hts

/-- The status-restore-and-jump (R164, R244, R383) by what the mode's saved status word is. -/
theorem State.statusRestoreJump_charge (s : State) (n : Nat) (v : Word) :
    (∀ saved, s.cpu.spsr.get? s.cpu.cpsr.m = some saved → modeValid saved.m = true →
      (s.charge n).statusRestoreJump v = .next (s.withCpu fun p =>
        { p.jumped saved.t v (s.refill saved.t v + n) with cpsr := saved })) ∧
    (∀ saved, s.cpu.spsr.get? s.cpu.cpsr.m = some saved → modeValid saved.m = false →
      (s.charge n).statusRestoreJump v = .fault (.invalidState s.ir s.cpu.pc)) ∧
    (s.cpu.spsr.get? s.cpu.cpsr.m = none →
      (s.charge n).statusRestoreJump v = .fault (.invalidState s.ir s.cpu.pc)) := by
  have hfault : inconsistent (s.charge n) = .fault (.invalidState s.ir s.cpu.pc) := by
    rw [inconsistent, State.charge_cpu]; rfl
  have hsaved : (s.charge n).cpu.spsr.get? (s.charge n).cpu.cpsr.m = s.cpu.spsr.get? s.cpu.cpsr.m := by
    rw [State.charge_cpu]; rfl
  simp only [State.statusRestoreJump, hsaved]
  refine ⟨fun saved h hm => ?_, fun saved h hm => ?_, fun h => ?_⟩
  · simp only [h, hm, if_true]
    have hswap : (s.charge n).withCpu (fun p => { p with cpsr := saved }) =
        (s.withCpu fun p => { p with cpsr := saved }).charge n := by
      unfold State.charge
      rw [State.withCpu_withCpu, State.withCpu_withCpu]
      rfl
    rw [hswap, State.jumpTo_charge, State.withCpu_withCpu]
    rfl
  · simp only [h, hm, Bool.false_eq_true, if_false, hfault]
  · simp only [h, hfault]

end

/-- Settles O31: what writeResult does with Rd = 15. -/
theorem dataProcessingToPc : Obligations.DataProcessingToPc := by
  intro op c rn x s hc hx hop
  have write := AluOp.isTest_of_not_mem hop
  obtain ⟨hrestore, hbad, hnone⟩ := s.statusRestoreJump_charge x.cycles
    (alu op (s.operandOne rn x) (s.operandTwo x).r (s.operandTwo x).c s.cpu.cpsr.flags).r
  dsimp only
  rw [exec_dpInstr_write hc hx write, exec_dpInstr_write hc hx write]
  refine ⟨congrArg Host.Outcome.next (s.jumpTo_charge ..), hrestore, hbad, fun hm => hnone ?_⟩
  obtain h | h := hm
  · rw [h]; rfl
  · rw [h]; rfl

end Sys2Proof.Machine

namespace Sys2Proof.Machine

/-! ### Thumb operations on high registers, pc and SP -/

/-- V of a subtraction is the exact difference's leaving the signed range (R142). -/
theorem subtract_v (a b : Word) : (subtract a b).v =
    decide (a.toInt - b.toInt < -2147483648 ∨ 2147483647 < a.toInt - b.toInt) := by
  have ha := a.isLt
  have hb := b.isLt
  rw [Bool.eq_iff_iff, decide_eq_true_iff]
  simp only [subtract, BitVec.msb_eq_decide, BitVec.toNat_sub, BitVec.toInt_eq_toNat_cond, Bool.and_eq_true, bne_iff_ne, ne_eq,
    decide_eq_decide]
  omega

section
variable (s : State) (rd : Reg) (v : Word)

theorem thumbPlain_eq : thumbPlain rd v s = .next (s.wroteThumb rd v s.cpu.cpsr 0) :=
  congrArg Host.Outcome.next (State.withCpu_congr rfl)

theorem thumbFlags_cmp (a b : Word) : thumbFlags (s.thumbAlu .cmp a b) s =
    .next (s.testedThumb (s.cpu.cpsr.nzcv (a - b) (decide (b.toNat ≤ a.toNat))
      (decide (a.toInt - b.toInt < -2147483648 ∨ 2147483647 < a.toInt - b.toInt)))) := by
  rw [← subtract_v]
  exact congrArg Host.Outcome.next (State.withCpu_congr rfl)

theorem State.jumpTo_eq (t : Bool) : s.jumpTo t v = s.withCpu fun p => p.jumped t v (s.refill t v) := by
  have h := s.jumpTo_charge 0 t v
  rwa [State.charge_zero] at h

end

/-- Settles O57: the write of a high register by its number, the rest by the shared Thumb shapes. -/
theorem thumbHighRegistersAndAddresses : Obligations.ThumbHighRegistersAndAddresses := by
  intro rs rd low word8 minus sword7 s
  have hoff : ∀ {n : Nat} (x : BitVec n), 4#32 * x.setWidth 32 = wordOffset x.toNat := fun x => by
    rw [wordOffset_eq, BitVec.mul_comm]
  have high : ∀ (rd : Reg) (v : Word), (rd ≠ 15#4 → thumbHighWrite rd v s = .next (s.wroteThumb rd v s.cpu.cpsr 0)) ∧
      (rd = 15#4 → thumbHighWrite rd v s = .next (s.withCpu fun p => p.jumped true v (s.refill true v))) := fun rd v =>
    ⟨fun h => (if_neg h).trans (thumbPlain_eq ..), fun h => (if_pos h).trans (congrArg _ (State.jumpTo_eq ..))⟩
  dsimp only
  rw [hoff, hoff]
  exact ⟨fun h => ⟨(high rd _).1 h, (high rd _).1 h⟩, fun h => ⟨(high rd _).2 h, (high rd _).2 h⟩, thumbFlags_cmp ..,
    thumbPlain_eq .., thumbPlain_eq .., thumbPlain_eq ..⟩

end Sys2Proof.Machine

namespace Sys2Proof.Machine

/-! ### Word and byte transfers by their form -/

/-- The address and the writeback of a transfer (R220). -/
def State.transferPlan (s : State) (p u w : Bool) (rn : Reg) (off : Word) : Transfer :=
  ⟨s.transferAddr p u rn off, if !p || w then some (s.offsetAddr u rn off) else none⟩

/-- A word or byte transfer at an offset of either form. -/
def transferAtOffset (p u w : Bool) (rn : Reg) (off : MemOffset) (s : State) (f : Transfer → State → Result) : Result :=
  match off with
  | .imm off12 => transferImm p u w rn off12 s f
  | .reg sh ty rm => transferReg p u w rn sh ty rm s f

/-- What a word or byte transfer does once its address is known (R221 to R224). -/
def singleWork (load byte : Bool) (rd rn : Reg) : Transfer → State → Result :=
  match load, byte with
  | true, false => doLdr rd rn
  | true, true => doLoad State.loadByte rd rn
  | false, false => doStr rd rn
  | false, true => doStore .byte rd rn

section
variable {p u w : Bool} {rn rd : Reg} {s : State}

theorem transfer_eq (off : Word) (hbase : (!p || w) = true → rn ≠ 15#4) (f : Transfer → State → Result) :
    transfer p u w rn off s f = f (s.transferPlan p u w rn off) s := by
  have hplan : transferOf p u w (s.cpu.armReg rn) off = s.transferPlan p u w rn off := by
    cases p <;> rfl
  simp only [transfer, hplan]
  refine if_neg fun h => ?_
  obtain ⟨hback, hpc⟩ := h
  refine hbase ?_ hpc
  simpa [State.transferPlan] using hback

theorem transferAtOffset_eq {off : MemOffset} (hoff : off.Allowed) (hbase : (!p || w) = true → rn ≠ 15#4)
    (f : Transfer → State → Result) :
    transferAtOffset p u w rn off s f = f (s.transferPlan p u w rn (s.memOffset off)) s := by
  cases off with
  | imm off12 => exact transfer_eq _ hbase f
  | reg sh ty rm => exact (if_neg hoff).trans (transfer_eq _ hbase f)

/-- A T form is the post-indexed form with writeback (R225). -/
theorem exec_singleInstr (load byte : Bool) (c : Cond) (p u w : Bool) (rn rd : Reg) (off : MemOffset) (s : State) :
    exec (singleInstr load byte c p u w rn rd off) s =
      ifPassed c s fun s => transferAtOffset p u w rn off s (singleWork load byte rd rn) := by
  cases load <;> cases byte <;> cases p <;> cases w <;> cases off <;> rfl

theorem State.writeBase_plan (x : State) (off : Word) : x.writeBase rn (s.transferPlan p u w rn off) =
    x.withCpu (·.based p w rn (s.offsetAddr u rn off)) := by
  cases h : !p || w with
  | true => simp only [State.writeBase, State.transferPlan, h, if_true, ProcState.based]; rfl
  | false =>
    simp only [State.writeBase, State.transferPlan, h, Bool.false_eq_true, if_false, ProcState.based]
    exact (State.withCpu_eq_self rfl).symm

/-- Base, Rd, an internal cycle, and the next instruction, from the state the access left. -/
theorem State.loaded_eq (x : State) (off v : Word) :
    (((x.writeBase rn (s.transferPlan p u w rn off)).charge 1).withCpu fun q => (q.setGpr rd v).advance 4#32) =
      x.loadedArm p w rn rd (s.offsetAddr u rn off) v := by
  rw [State.writeBase_plan, State.charge, State.withCpu_withCpu, State.withCpu_withCpu]
  refine State.withCpu_congr ?_
  unfold ProcState.based
  split
  · rfl
  · rfl

theorem State.stored_eq (x : State) (off : Word) :
    (x.writeBase rn (s.transferPlan p u w rn off)).advanceArm = x.storedArm p w rn (s.offsetAddr u rn off) := by
  rw [State.writeBase_plan, State.advanceArm, State.withCpu_withCpu]
  refine State.withCpu_congr ?_
  unfold ProcState.based
  split
  · rfl
  · rfl

theorem State.interwork_charge (s : State) (n : Nat) (v : Word) :
    (s.charge n).interwork v = s.withCpu fun p => p.exchanged v (s.refill (v.getLsbD 0) v + n) := by
  have hswap : (s.charge n).withCpu (·.setT (v.getLsbD 0)) = (s.withCpu (·.setT (v.getLsbD 0))).charge n := by
    unfold State.charge
    rw [State.withCpu_withCpu, State.withCpu_withCpu]
    rfl
  rw [State.interwork, hswap, State.jumpTo_charge, State.withCpu_withCpu]
  rfl

/-- A load of R15 exchanges on A alone (R221, R441). -/
theorem State.loadPc_plan (x : State) (off v : Word) :
    (x.cur = .A → ((x.writeBase rn (s.transferPlan p u w rn off)).charge 1).loadPc v = x.withCpu fun q =>
      (q.based p w rn (s.offsetAddr u rn off)).exchanged v (x.refill (v.getLsbD 0) v + 1)) ∧
    (x.cur = .B → ((x.writeBase rn (s.transferPlan p u w rn off)).charge 1).loadPc v = x.withCpu fun q =>
      (q.based p w rn (s.offsetAddr u rn off)).jumped false v (x.refill false v + 1)) := by
  rw [State.writeBase_plan]
  have hcur : ((x.withCpu (·.based p w rn (s.offsetAddr u rn off))).charge 1).cur = x.cur := rfl
  refine ⟨fun h => ?_, fun h => ?_⟩
  · rw [State.loadPc, hcur, h]
    exact (State.interwork_charge ..).trans (State.withCpu_withCpu ..)
  · rw [State.loadPc, hcur, h]
    exact (State.jumpTo_charge ..).trans (State.withCpu_withCpu ..)

/-- The rotation of an unaligned word (R67). -/
theorem toNat_extractLsb'_two (a : Word) : (a.extractLsb' 0 2).toNat = a.toNat % 4 := by
  rw [BitVec.extractLsb'_toNat]; rfl

end

/-- Settles O42: each form is its work at the address of R220, and that work one of three shapes. -/
theorem singleTransfers : Obligations.SingleTransfers := by
  intro c p u w rn rd off s hc hoff hbase
  have form : ∀ load byte, exec (singleInstr load byte c p u w rn rd off) s =
      singleWork load byte rd rn (s.transferPlan p u w rn (s.memOffset off)) s := fun load byte => by
    rw [exec_singleInstr, ifPassed_of_passed hc, transferAtOffset_eq hoff hbase]
  dsimp only
  rw [form, form, form, form, ← toNat_extractLsb'_two]
  have hcur : (s.load (s.transferAddr p u rn (s.memOffset off)) .word).s.cur = s.cur := (keeps_load ..).cur
  refine ⟨fun h => ?_, fun h hA => ?_, fun h hB => ?_, congrArg _ (State.stored_eq ..), fun h => ⟨?_, ?_⟩⟩
  · exact (if_neg h).trans (congrArg _ (State.loaded_eq ..))
  · exact (if_pos h).trans (congrArg _ ((State.loadPc_plan ..).1 (hcur.trans hA)))
  · exact (if_pos h).trans (congrArg _ ((State.loadPc_plan ..).2 (hcur.trans hB)))
  · exact (if_neg h).trans (congrArg _ (State.loaded_eq ..))
  · exact (if_neg h).trans (congrArg _ (State.stored_eq ..))

end Sys2Proof.Machine

namespace Sys2Proof.Machine

/-! ### Accesses that meet no memory -/

/-- The presented address as a difference (R66). -/
theorem and_eq_sub_mod {x y : Word} {n : Nat} (h : y.toNat = x.toNat / n * n) : y = x - BitVec.ofNat 32 (x.toNat % n) := by
  have hx := x.isLt
  have hle := Nat.mod_le x.toNat n
  have hsum := Nat.div_add_mod x.toNat n
  have hcomm := Nat.mul_comm n (x.toNat / n)
  apply BitVec.eq_of_toNat_eq
  rw [BitVec.toNat_sub, BitVec.toNat_ofNat, Nat.mod_eq_of_lt (hle.trans_lt hx), h]
  omega

theorem clear_bit0_eq (x : Word) : x &&& 0xFFFFFFFE#32 = x - BitVec.ofNat 32 (x.toNat % 2) :=
  and_eq_sub_mod (toNat_clear_bit0 x)

theorem clear_bits01_eq (x : Word) : x &&& 0xFFFFFFFC#32 = x - BitVec.ofNat 32 (x.toNat % 4) :=
  and_eq_sub_mod (toNat_clear_bits01 x)

/-- The low n bits of a word by a mask. -/
theorem setWidth_setWidth_eq_and (x : Word) {n : Nat} (hn : n < 32) :
    (x.setWidth n).setWidth 32 = x &&& BitVec.ofNat 32 (2 ^ n - 1) := by
  have hx := x.isLt
  have hpow : 2 ^ n < 2 ^ 32 := Nat.pow_lt_pow_right (by decide) hn
  apply BitVec.eq_of_toNat_eq
  rw [BitVec.toNat_and, BitVec.toNat_ofNat, Nat.mod_eq_of_lt ((Nat.sub_le _ 1).trans_lt hpow),
    Nat.and_two_pow_sub_one_eq_mod, BitVec.toNat_setWidth, BitVec.toNat_setWidth]
  exact Nat.mod_eq_of_lt ((Nat.mod_lt _ (Nat.two_pow_pos n)).trans hpow)

/-- The waitstate entry an access is charged (R75), as a row of the table. -/
theorem State.waitCost_eq (s : State) (a : Word) (k : WaitClass) :
    s.waitCost a k = (((s.waits.get s.cur)[(a.toNat / 16777216) % 16]!).get k).count := by
  have hrow : (s.waits.get s.cur).get (regionOf a).toFin = (s.waits.get s.cur)[(a.toNat / 16777216) % 16]! := by
    rw [getElem!_pos (s.waits.get s.cur) _ (Nat.mod_lt _ (by decide)), Vector.get_eq_getElem]
    congr 1
    show (regionOf a).toNat = _
    rw [regionOf, BitVec.extractLsb'_toNat, Nat.shiftRight_eq_div_pow]
  rw [State.waitCost, hrow]

/-- The answer a collaborator gives next: the oldest at hand, or a free one (R60, R64). -/
def State.answer (s : State) : Reply :=
  match s.inbox with
  | r :: _ => r
  | [] => freeReply s.draws

/-- A request has been put, and the answer taken. -/
def State.afterAsking (s : State) (q : Request) : State :=
  { s with
    outbox := q :: s.outbox
    inbox := s.inbox.tail
    draws := if s.inbox = [] then s.draws + 1 else s.draws }

theorem State.ask_eq (s : State) (q : Request) : s.ask q = ⟨s.answer, s.afterAsking q⟩ := by
  unfold State.ask State.answer State.afterAsking
  cases h : s.inbox with
  | nil => rfl
  | cons r rest => rfl

section
variable {s : State} {addr : Word} {w : Width}

theorem State.memRead_of_no_cells (seq : Bool) (h : s.cellsAt addr w = none) : s.memRead addr w seq =
    ⟨w.clip s.answer.value, ((s.account (w.align addr) w seq).afterAsking (.busRead s.cur (w.align addr) w)).applyCalls .read
      s.answer.calls⟩ := by
  have hc : cellsIn ((s.account (w.align addr) w seq).maps.get (s.account (w.align addr) w seq).cur)
      (w.align addr).toNat w.size = none := h
  simp only [State.memRead, State.busRead, hc, State.ask_eq]
  rfl

theorem State.memWrite_of_no_cells (v : Word) (seq : Bool) (h : s.cellsAt addr w = none) : s.memWrite addr w v seq =
    ((s.account (w.align addr) w seq).afterAsking (.busWrite s.cur (w.align addr) w (w.clip v))).applyCalls .write
      s.answer.calls := by
  have hc : cellsIn ((s.account (w.align addr) w seq).maps.get (s.account (w.align addr) w seq).cur)
      (w.align addr).toNat w.size = none := h
  simp only [State.memWrite, State.busWrite, hc, State.ask_eq]
  rfl

end

theorem State.applyCall_inbox (s : State) (src : CallSource) (c : Call) : (s.applyCall src c).inbox = s.inbox := by
  cases c with
  | requestInterrupt | setWaitstate | writeCell | halt =>
    simp only [State.applyCall, State.requestInterrupt]
    split <;> rfl
  | _ => rfl

theorem State.applyCalls_inbox (s : State) (src : CallSource) (cs : List Call) : (s.applyCalls src cs).inbox = s.inbox := by
  induction cs generalizing s with
  | nil => rfl
  | cons c cs ih => exact (ih _).trans (s.applyCall_inbox src c)

/-! ### The order of accesses (R76) -/

theorem ProcState.sequential_iff (p : ProcState) (a : Word) (w : Width) : p.sequential a w = true ↔
    ∃ b : Word, p.lastbus = some ⟨b, w⟩ ∧ a = b + BitVec.ofNat 32 w.size := by
  unfold ProcState.sequential
  cases p.lastbus with
  | none => simp
  | some b =>
    obtain ⟨ba, bw⟩ := b
    simp only [Bool.and_eq_true, beq_iff_eq, Option.some.injEq, BusAccess.mk.injEq]
    constructor
    · rintro ⟨hw, ha⟩
      exact ⟨ba, ⟨rfl, hw⟩, ha⟩
    · rintro ⟨b, ⟨hb, hw⟩, ha⟩
      exact ⟨hw, hb ▸ ha⟩

/-! ### Calls -/

theorem WaitRow.get_put (r : WaitRow) (k k' : WaitClass) (c : Cycles) :
    (r.put k c).get k' = if k' = k then c else r.get k' := by
  cases k <;> cases k' <;> rfl

/-- One entry of the waitstate tables is replaced, and no other (R78). -/
theorem State.setWaitstate_get (s : State) (p p' : Proc) (region r' : BitVec 4) (k k' : WaitClass) (c : Cycles) :
    ((((s.setWaitstate p region k c).waits.get p')[r'.toNat]).get k') =
      if p' = p ∧ r' = region ∧ k' = k then c else (((s.waits.get p')[r'.toNat]).get k') := by
  unfold State.setWaitstate
  by_cases hp : p' = p
  · subst hp
    simp only [Pair.get_modify_same, Vector.getElem_set, true_and]
    by_cases hr : r' = region
    · subst hr
      rw [if_pos rfl, WaitRow.get_put]
      simp only [true_and]
      rfl
    · rw [if_neg fun e => hr (BitVec.eq_of_toNat_eq e.symm), if_neg fun e => hr e.1]
  · simp only [Pair.get_modify_of_ne _ _ hp]
    rw [if_neg fun e => hp e.1]

/-- Settles O41: the first clause by the cases of the width, each call by its own branch of applyCall. -/
theorem collaborators : Obligations.Collaborators := by
  intro s src p
  refine ⟨?_, fun addr w v => ⟨ProcState.sequential_iff .., rfl, rfl⟩, ⟨rfl, fun _ _ => rfl⟩, fun id h => if_pos h,
    fun _ => rfl, fun _ => rfl, fun _ => rfl, fun _ => rfl, fun cell v h => ?_, fun cell v h => if_pos h,
    fun id h => if_neg (Nat.not_lt.2 h), fun _ _ => rfl, fun region k c h p' r' k' => ?_,
    fun region k c hw he => if_neg fun h => h.elim hw he, fun h => if_pos h, fun h => if_neg h⟩
  · intro addr w v seq h a row cost charged answer asked clip read written
    have ha : w.align addr = a := by
      cases w with
      | byte => rfl
      | half => exact clear_bit0_eq addr
      | word => exact clear_bits01_eq addr
    have hcost : s.waitCost a (waitClass w seq) = cost := by
      rw [State.waitCost_eq]
      cases w <;> cases seq <;> rfl
    have hclip : ∀ x, w.clip x = clip x := fun x => by
      cases w with
      | byte => exact setWidth_setWidth_eq_and x (by decide)
      | half => exact setWidth_setWidth_eq_and x (by decide)
      | word => rfl
    have hasked : ∀ q, asked q = (s.account a w seq).afterAsking q := fun q => by
      rw [State.account, hcost]
      rfl
    have hanswer : s.answer = answer := by
      cases hi : s.inbox with
      | nil => simp only [State.answer, answer, hi]
      | cons r rest => simp only [State.answer, answer, hi]
    have hread : read = ⟨clip answer.value, (asked (.busRead s.cur a w)).applyCalls .read answer.calls⟩ := by
      rw [hasked, ← hclip, ← hanswer, ← ha]
      exact State.memRead_of_no_cells seq h
    have hwritten : written = (asked (.busWrite s.cur a w (clip v))).applyCalls .write answer.calls := by
      rw [hasked, ← hclip, ← hanswer, ← ha]
      exact State.memWrite_of_no_cells v seq h
    rw [hread, hwritten]
    simp only [State.applyCalls_outbox, State.applyCalls_inbox, true_and]
    exact ⟨rfl, rfl, rfl, rfl⟩
  · have hset : s.applyCall src (.writeCell cell v) = { s with mem := s.mem.set cell v } := if_neg h
    rw [hset]
    refine ⟨rfl, fun hm c => ?_⟩
    split
    · next hc => exact hc ▸ Memory.get_set_same _ hm _ _
    · next hc => exact Memory.get_set_of_ne _ _ hc hm
  · rw [show s.applyCall src (.setWaitstate p region k c) = s.setWaitstate p region k c from if_pos h]
    exact State.setWaitstate_get ..

end Sys2Proof.Machine

namespace Sys2Proof.Machine

/-! ### Reading a block in order -/

/-- The words read, by the registers that stand at their places. -/
def named (regs : List Reg) (vs : List (Nat × Word)) : List (Reg × Word) := vs.map fun x => (regs.getD x.1 0#4, x.2)

section
variable (s : State) (lowest : Word) (seq : Bool) (ks : List Nat)

theorem State.readBlock_map (regs : List Reg) :
    s.readBlock seq (ks.map fun k => (regs.getD k 0#4, blockAddr lowest k)) =
      ⟨named regs (s.readInOrder lowest seq ks).values, (s.readInOrder lowest seq ks).s⟩ := by
  induction ks generalizing s seq with
  | nil => rfl
  | cons k ks ih => simp only [List.map_cons, State.readBlock, ih, State.readInOrder, named]

theorem State.readInOrder_keys : (s.readInOrder lowest seq ks).values.map Prod.fst = ks := by
  induction ks generalizing s seq with
  | nil => rfl
  | cons k ks ih => simp only [State.readInOrder, List.map_cons, ih]

theorem sameRegs_readInOrder : SameRegs s.cpu (s.readInOrder lowest seq ks).s.cpu := by
  induction ks generalizing s seq with
  | nil => exact .refl _
  | cons k ks ih => exact (sameRegs_memRead s ..).trans (ih _ true)

theorem sameSite_readInOrder : SameSite s (s.readInOrder lowest seq ks).s := by
  induction ks generalizing s seq with
  | nil => exact .refl _
  | cons k ks ih => exact (sameSite_memRead s ..).trans (ih _ true)

end

theorem nodup_blockOrder (u : Bool) (n : Nat) : (blockOrder u n).Nodup := by
  cases u
  · exact List.nodup_reverse.2 List.nodup_range
  · exact List.nodup_range

theorem lookup_of_mem {l : List (Nat × Word)} {x : Nat × Word} (hl : (l.map Prod.fst).Nodup) (hx : x ∈ l) :
    l.lookup x.1 = some x.2 := by
  induction l with
  | nil => cases hx
  | cons y l ih =>
    obtain ⟨hy, hl⟩ := List.nodup_cons.1 hl
    cases hx with
    | head => rw [List.lookup_cons, beq_self_eq_true]
    | tail _ hx =>
      have hne : (x.1 == y.1) = false := beq_eq_false_iff_ne.2 fun e => hy (e ▸ List.mem_map_of_mem hx)
      rw [List.lookup_cons, hne]
      exact ih hl hx

/-- Each word read is the one its place is looked up for. -/
theorem State.word_readInOrder {s : State} {lowest : Word} {seq : Bool} {ks : List Nat} (hks : ks.Nodup) {x : Nat × Word}
    (hx : x ∈ (s.readInOrder lowest seq ks).values) : (s.readInOrder lowest seq ks).word x.1 = x.2 := by
  rw [BlockSeen.word, lookup_of_mem (by rwa [State.readInOrder_keys]) hx]
  rfl

/-! ### A block that meets memory alone -/

/-- The cost of the words of a block after the first. -/
def State.restCost (s : State) (lowest : Word) (ks : List Nat) : Nat :=
  (ks.map fun j => s.waitCost (Width.word.align (blockAddr lowest j)) .s32).sum

section
variable {s : State} {lowest : Word} {ks : List Nat} {cells : Nat → List Nat}

theorem State.readInOrder_rest (h : ∀ k ∈ ks, s.cellsAt (blockAddr lowest k) .word = some (cells k)) :
    s.readInOrder lowest true ks = ⟨ks.map fun k => (k, s.mem.readCells (cells k)), s.withCpu fun q =>
      { q with ts := q.ts + s.restCost lowest ks, lastbus := (lastOf lowest ks).or q.lastbus }⟩ := by
  induction ks generalizing s with
  | nil =>
    have hid : s.withCpu (fun q => { q with ts := q.ts + s.restCost lowest [], lastbus := (lastOf lowest []).or q.lastbus }) =
        s := State.withCpu_eq_self rfl
    rw [hid]
    rfl
  | cons k ks ih =>
    have hk := ih (s := s.account (Width.word.align (blockAddr lowest k)) .word true)
      fun j hj => h j (List.mem_cons_of_mem k hj)
    rw [State.readInOrder, State.memRead_of_cells (h k List.mem_cons_self)]
    dsimp only
    rw [hk]
    simp only [State.account, State.withCpu_withCpu, List.map_cons]
    congr 1
    refine State.withCpu_congr ?_
    have hlast : (lastOf lowest (k :: ks)).or s.cpu.lastbus =
        (lastOf lowest ks).or (some ⟨Width.word.align (blockAddr lowest k), .word⟩) := by
      cases hg : ks.getLast? <;> simp [lastOf, List.getLast?_cons, hg]
    have hcost : s.cpu.ts + s.waitCost (Width.word.align (blockAddr lowest k)) .s32 + s.restCost lowest ks =
        s.cpu.ts + s.restCost lowest (k :: ks) := by
      simp only [State.restCost, List.map_cons, List.sum_cons]
      omega
    rw [hlast, ← hcost]
    rfl

/-- A block that meets memory alone gives memory's words for the block's cost (R236, R245). -/
theorem State.readInOrder_of_cells (hks : ks ≠ [])
    (h : ∀ k ∈ ks, s.cellsAt (blockAddr lowest k) .word = some (cells k)) :
    s.readInOrder lowest false ks = ⟨ks.map fun k => (k, s.mem.readCells (cells k)), s.withCpu fun q =>
      { q with ts := q.ts + s.blockCost lowest ks, lastbus := lastOf lowest ks }⟩ := by
  cases ks with
  | nil => exact absurd rfl hks
  | cons k ks =>
    have hrest := State.readInOrder_rest (s := s.account (Width.word.align (blockAddr lowest k)) .word false)
      fun j hj => h j (List.mem_cons_of_mem k hj)
    rw [State.readInOrder, State.memRead_of_cells (h k List.mem_cons_self)]
    dsimp only
    rw [hrest]
    simp only [State.account, State.withCpu_withCpu, List.map_cons]
    congr 1
    refine State.withCpu_congr ?_
    have hlast : (lastOf lowest (k :: ks)) =
        (lastOf lowest ks).or (some ⟨Width.word.align (blockAddr lowest k), .word⟩) := by
      cases hg : ks.getLast? <;> simp [lastOf, List.getLast?_cons, hg]
    rw [hlast, State.blockCost, ← Nat.add_assoc]
    rfl

end

/-! ### The registers of a list -/

/-- R15 stands last in a list, if it stands in it at all. -/
theorem regsOf_eq (list : BitVec 16) : ∃ low : List Reg, 15#4 ∉ low ∧
    regsOf list = low ++ if list.getLsbD 15 then [15#4] else [] := by
  refine ⟨(allRegs.take 15).filter fun i => list.getLsbD i.toNat, fun h => ?_, ?_⟩
  · exact absurd (List.mem_of_mem_filter h) (by decide)
  · have hall : allRegs = allRegs.take 15 ++ [15#4] := by decide
    rw [regsOf, hall, List.filter_append]
    congr 1
    rw [List.filter_cons, List.filter_nil]
    rfl

theorem regsOf_pc_place {list : BitVec 16} {k : Nat} (hk : k < (regsOf list).length) :
    (regsOf list).getD k 0#4 = 15#4 ↔ list.getLsbD 15 = true ∧ k = (regsOf list).length - 1 := by
  obtain ⟨low, hlow, heq⟩ := regsOf_eq list
  rw [heq] at hk ⊢
  have hne : ∀ h : k < low.length, low[k] ≠ 15#4 := fun h e => hlow (e ▸ List.getElem_mem h)
  cases h15 : list.getLsbD 15 with
  | false =>
    simp only [h15, Bool.false_eq_true, if_false, List.append_nil, false_and, iff_false] at hk ⊢
    rw [List.getD_eq_getElem _ _ hk]
    exact hne hk
  | true =>
    simp only [h15, if_true, true_and, List.length_append, List.length_singleton, Nat.add_sub_cancel] at hk ⊢
    by_cases hlt : k < low.length
    · rw [List.getD_append _ _ _ _ hlt, List.getD_eq_getElem _ _ hlt]
      exact ⟨fun e => absurd e (hne hlt), fun e => absurd e hlt.ne⟩
    · have hlast : k = low.length := by omega
      simp [hlast]

theorem regsOf_ne_nil {list : BitVec 16} (h : list ≠ 0#16) : regsOf list ≠ [] := by
  intro hnil
  apply h
  apply BitVec.eq_of_getLsbD_eq
  intro i hi
  have hnot : BitVec.ofNat 4 i ∉ regsOf list := hnil ▸ List.not_mem_nil
  rw [mem_regsOf, BitVec.toNat_ofNat, Nat.mod_eq_of_lt (by omega)] at hnot
  simpa using hnot

end Sys2Proof.Machine

namespace Sys2Proof.Machine

/-! ### Block loads in the words of the statements -/

theorem ProcState.writeRegs_named (p : ProcState) (m : BitVec 5) (regs : List Reg) {word : Nat → Word}
    {vs : List (Nat × Word)} (h : ∀ x ∈ vs, word x.1 = x.2) :
    p.writeRegs m (named regs vs) = p.loadRegs m regs word (vs.map Prod.fst) := by
  induction vs generalizing p with
  | nil => rfl
  | cons x vs ih =>
    have hx := h x List.mem_cons_self
    simp only [named, List.map_cons, ProcState.writeRegs, ProcState.loadRegs, List.foldl_cons, hx]
    exact ih _ fun y hy => h y (List.mem_cons_of_mem x hy)

theorem ProcState.loadRegs_congr (q : ProcState) (m : BitVec 5) (regs : List Reg) {word word' : Nat → Word}
    {order : List Nat} (h : ∀ k ∈ order, word k = word' k) :
    q.loadRegs m regs word order = q.loadRegs m regs word' order := by
  induction order generalizing q with
  | nil => rfl
  | cons k ks ih =>
    simp only [ProcState.loadRegs, List.foldl_cons, h k List.mem_cons_self]
    exact ih _ fun j hj => h j (List.mem_cons_of_mem k hj)

/-- A processor that has loaded a block, and its base if it is written back (R238, R239, R243). -/
def ProcState.blockLoaded (q : ProcState) (m : BitVec 5) (regs : List Reg) (word : Nat → Word) (order : List Nat)
    (back : Bool) (rn : Reg) (base : Word) : ProcState :=
  if back then (q.loadRegs m regs word order).setGpr rn base else q.loadRegs m regs word order

section
variable (q : ProcState) (m : BitVec 5) (regs : List Reg) (word : Nat → Word) (order : List Nat) (back : Bool) (rn : Reg)
  (base : Word)

/-- Loading a block writes registers alone. -/
theorem ProcState.loadRegs_eq :
    q.loadRegs m regs word order = { q with phys := (q.loadRegs m regs word order).phys } := by
  induction order generalizing q with
  | nil => rfl
  | cons k ks ih =>
    have hstep : q.loadRegs m regs word (k :: ks) =
        (if regs.getD k 0#4 = 15#4 then q else q.setBankReg m (regs.getD k 0#4) (word k)).loadRegs m regs word ks := rfl
    rw [hstep]
    split
    · exact ih q
    · exact ih _

theorem ProcState.blockLoaded_eq : q.blockLoaded m regs word order back rn base =
    { q with phys := (q.blockLoaded m regs word order back rn base).phys } := by
  unfold ProcState.blockLoaded
  have h := q.loadRegs_eq m regs word order
  cases back with
  | false => exact h
  | true =>
    simp only [if_true]
    rw [h]
    rfl

end

theorem ProcState.blockLoaded_congr (q : ProcState) (m : BitVec 5) (regs : List Reg) {word word' : Nat → Word}
    {order : List Nat} (h : ∀ k ∈ order, word k = word' k) (back : Bool) (rn : Reg) (base : Word) :
    q.blockLoaded m regs word order back rn base = q.blockLoaded m regs word' order back rn base := by
  rw [ProcState.blockLoaded, ProcState.loadRegs_congr q m regs h]
  rfl

theorem pcValue_named_none {regs : List Reg} {vs : List (Nat × Word)} (h : ∀ x ∈ vs, regs.getD x.1 0#4 ≠ 15#4) :
    pcValue (named regs vs) = none := by
  induction vs with
  | nil => rfl
  | cons x vs ih =>
    simp only [named, List.map_cons, pcValue]
    rw [if_neg (h x List.mem_cons_self)]
    exact ih fun y hy => h y (List.mem_cons_of_mem x hy)

theorem pcValue_named_some {regs : List Reg} {vs : List (Nat × Word)} {v : Word}
    (h : ∀ x ∈ vs, regs.getD x.1 0#4 = 15#4 → x.2 = v) (hex : ∃ x ∈ vs, regs.getD x.1 0#4 = 15#4) :
    pcValue (named regs vs) = some v := by
  induction vs with
  | nil =>
    obtain ⟨x, hx, -⟩ := hex
    cases hx
  | cons x vs ih =>
    simp only [named, List.map_cons, pcValue]
    split
    · next hpc => exact congrArg some (h x List.mem_cons_self hpc)
    · next hpc =>
      refine ih (fun y hy => h y (List.mem_cons_of_mem x hy)) ?_
      obtain ⟨y, hy, hy15⟩ := hex
      cases hy with
      | head => exact absurd hy15 hpc
      | tail _ hy => exact ⟨y, hy, hy15⟩

/-- The words of a block load as they are seen. -/
def State.blockSeen (s : State) (p u : Bool) (rn : Reg) (regs : List Reg) : BlockSeen :=
  s.readInOrder (lowestAddr p u (s.cpu.gpr rn) regs.length) false (blockOrder u regs.length)

section
variable {s : State} {m : BitVec 5} {p u w : Bool} {rn : Reg} {regs : List Reg} {list : BitVec 16}

/-- Whether a block load writes its base back (R239). -/
def writesBack (s : State) (w : Bool) (rn : Reg) (regs : List Reg) : Bool := w && ldmWritesBase s.cur rn regs

theorem writesBack_iff : writesBack s w rn regs = true ↔
    w = true ∧ (rn ∉ regs ∨ (s.cur = .A ∧ (regs = [rn] ∨ regs.getLast? ≠ some rn))) := by
  unfold writesBack ldmWritesBase
  cases s.cur <;> simp

/-- The processor after a block load, its internal cycle and its pc apart. -/
def State.blockWork (s : State) (m : BitVec 5) (p u w : Bool) (rn : Reg) (regs : List Reg) (q : ProcState) : ProcState :=
  q.blockLoaded m regs (s.blockSeen p u rn regs).word (blockOrder u regs.length) (writesBack s w rn regs) rn
    (finalBase u (s.cpu.gpr rn) regs.length)

theorem State.loadBlock_eq : s.loadBlock m p u w rn regs =
    ⟨named regs (s.blockSeen p u rn regs).values,
      ((s.blockSeen p u rn regs).s.withCpu (s.blockWork m p u w rn regs)).charge 1⟩ := by
  have hread : s.readBlock false (busOrder u (placed regs (blockLowest p u (s.cpu.gpr rn) (blockSize regs)))) =
      ⟨named regs (s.blockSeen p u rn regs).values, (s.blockSeen p u rn regs).s⟩ := by
    rw [busOrder_placed, blockLowest_eq, State.readBlock_map]
    rfl
  have hregs : ∀ q : ProcState, q.writeRegs m (named regs (s.blockSeen p u rn regs).values) =
      q.loadRegs m regs (s.blockSeen p u rn regs).word (blockOrder u regs.length) := fun q => by
    have hkeys : (s.blockSeen p u rn regs).values.map Prod.fst = blockOrder u regs.length := State.readInOrder_keys ..
    rw [← hkeys]
    exact q.writeRegs_named m regs fun x hx => State.word_readInOrder (nodup_blockOrder u _) hx
  simp only [State.loadBlock, hread, hregs]
  congr 2
  cases hb : w && ldmWritesBase s.cur rn regs with
  | false =>
    refine State.withCpu_congr ?_
    rw [State.blockWork, writesBack, hb]
    rfl
  | true =>
    refine (State.withCpu_withCpu ..).trans (State.withCpu_congr ?_)
    rw [State.blockWork, writesBack, hb]
    rfl

/-- The word that goes to R15 is the last of the block, if R15 is listed. -/
theorem State.pcValue_blockSeen (hlist : list ≠ 0#16) :
    pcValue (named (regsOf list) (s.blockSeen p u rn (regsOf list)).values) =
      if list.getLsbD 15 then some ((s.blockSeen p u rn (regsOf list)).word ((regsOf list).length - 1)) else none := by
  have hkeys : (s.blockSeen p u rn (regsOf list)).values.map Prod.fst = blockOrder u (regsOf list).length :=
    State.readInOrder_keys ..
  have hplace : ∀ x ∈ (s.blockSeen p u rn (regsOf list)).values, (regsOf list).getD x.1 0#4 = 15#4 ↔
      list.getLsbD 15 = true ∧ x.1 = (regsOf list).length - 1 := fun x hx => by
    have hk : x.1 ∈ blockOrder u (regsOf list).length := hkeys ▸ List.mem_map_of_mem hx
    exact regsOf_pc_place (mem_blockOrder.1 hk)
  cases h15 : list.getLsbD 15 with
  | false => exact pcValue_named_none fun x hx h => Bool.false_ne_true (h15.symm.trans ((hplace x hx).1 h).1)
  | true =>
    refine pcValue_named_some (fun x hx h => ?_) ?_
    · rw [← ((hplace x hx).1 h).2]
      exact (State.word_readInOrder (nodup_blockOrder u _) hx).symm
    · have hpos : 0 < (regsOf list).length := List.length_pos_of_ne_nil (regsOf_ne_nil hlist)
      have hmem : (regsOf list).length - 1 ∈ (s.blockSeen p u rn (regsOf list)).values.map Prod.fst := by
        rw [hkeys, mem_blockOrder]
        omega
      obtain ⟨x, hx, hx1⟩ := List.mem_map.1 hmem
      exact ⟨x, hx, (hplace x hx).2 ⟨h15, hx1⟩⟩

/-- Where the block meets memory alone its words are memory's, its cost the block's. -/
theorem State.blockSeen_of_cells {cells : Nat → List Nat} (hregs : regs ≠ [])
    (h : s.BlockAt (lowestAddr p u (s.cpu.gpr rn) regs.length) regs.length cells) :
    (∀ k < regs.length, (s.blockSeen p u rn regs).word k = s.mem.readCells (cells k)) ∧
    (s.blockSeen p u rn regs).s = s.withCpu fun q =>
      { q with
        ts := q.ts + s.blockCost (lowestAddr p u (s.cpu.gpr rn) regs.length) (blockOrder u regs.length)
        lastbus := lastOf (lowestAddr p u (s.cpu.gpr rn) regs.length) (blockOrder u regs.length) } := by
  have hpos : 0 < regs.length := List.length_pos_of_ne_nil hregs
  have hne : blockOrder u regs.length ≠ [] := List.ne_nil_of_mem (mem_blockOrder.2 hpos)
  have hread : s.blockSeen p u rn regs = _ := State.readInOrder_of_cells hne fun k hk => h k (mem_blockOrder.1 hk)
  refine ⟨fun k hk => ?_, by rw [hread]⟩
  have hx : (k, s.mem.readCells (cells k)) ∈ (s.blockSeen p u rn regs).values := by
    rw [hread]
    exact List.mem_map.2 ⟨k, mem_blockOrder.2 hk, rfl⟩
  exact State.word_readInOrder (nodup_blockOrder u _) hx

end

end Sys2Proof.Machine

namespace Sys2Proof.Machine

/-! ### LDM with the S bit (R243, R244) -/

section
variable {s : State} {c : Cond} {p u w : Bool} {rn : Reg} {list : BitVec 16}

theorem blockRefused_eq_false (hrn : rn ≠ 15#4) (hlist : list ≠ 0#16) : blockRefused rn (regsOf list) = false := by
  have hregs := regsOf_ne_nil hlist
  simp [blockRefused, hregs, hrn]

/-- Nothing but registers differs after a block's work. -/
theorem State.blockWork_eq (s : State) (m : BitVec 5) (p u w : Bool) (rn : Reg) (regs : List Reg) (q : ProcState) :
    s.blockWork m p u w rn regs q = { q with phys := (s.blockWork m p u w rn regs q).phys } :=
  ProcState.blockLoaded_eq ..

theorem exec_ldmS_user (hc : condPassed c s.cpu.cpsr = true) (hrn : rn ≠ 15#4) (hlist : list ≠ 0#16)
    (h15 : list.getLsbD 15 = false) : exec (.ldmS c p u w rn list) s =
      .next ((s.blockSeen p u rn (regsOf list)).s.withCpu fun q =>
        { s.blockWork Mode.usr.bits p u w rn (regsOf list) q with pc := q.pc + 4#32, ts := q.ts + 1 }) := by
  have hr : ¬blockRefused rn (regsOf list) = true := by simp [blockRefused_eq_false hrn hlist]
  rw [exec, execLdmS, ifPassed_of_passed hc, if_neg hr]
  simp only [h15, Bool.false_eq_true, if_false, State.loadBlock_eq, State.pcValue_blockSeen hlist]
  refine congrArg Host.Outcome.next ?_
  rw [State.advanceArm, State.charge, State.withCpu_withCpu, State.withCpu_withCpu]
  refine State.withCpu_congr ?_
  rw [State.blockWork_eq]
  rfl

theorem exec_ldmS_restore (hc : condPassed c s.cpu.cpsr = true) (hrn : rn ≠ 15#4) (hlist : list ≠ 0#16)
    (h15 : list.getLsbD 15 = true) : exec (.ldmS c p u w rn list) s =
      (((s.blockSeen p u rn (regsOf list)).s.withCpu (s.blockWork s.cpu.cpsr.m p u w rn (regsOf list))).charge
        1).statusRestoreJump ((s.blockSeen p u rn (regsOf list)).word ((regsOf list).length - 1)) := by
  have hr : ¬blockRefused rn (regsOf list) = true := by simp [blockRefused_eq_false hrn hlist]
  rw [exec, execLdmS, ifPassed_of_passed hc, if_neg hr]
  simp only [h15, if_true, State.loadBlock_eq, State.pcValue_blockSeen hlist]

/-- The status-restore-and-jump after a block, by the saved status word of the mode it began in. -/
theorem statusRestoreJump_blockWork (m : BitVec 5) (regs : List Reg) (v : Word) :
    let seen := s.blockSeen p u rn regs
    let done := (seen.s.withCpu (s.blockWork m p u w rn regs)).charge 1
    (∀ saved, s.cpu.spsr.get? s.cpu.cpsr.m = some saved → modeValid saved.m = true →
      done.statusRestoreJump v = .next (seen.s.withCpu fun q =>
        { ({ s.blockWork m p u w rn regs q with ts := q.ts + 1 }).jumped saved.t v (seen.s.refill saved.t v) with
          cpsr := saved })) ∧
    (∀ saved, s.cpu.spsr.get? s.cpu.cpsr.m = some saved → modeValid saved.m = false →
      done.statusRestoreJump v = .fault (.invalidState s.ir s.cpu.pc)) ∧
    (s.cpu.spsr.get? s.cpu.cpsr.m = none → done.statusRestoreJump v = .fault (.invalidState s.ir s.cpu.pc)) := by
  intro seen done
  have hsame : SameRegs s.cpu seen.s.cpu := sameRegs_readInOrder ..
  have hir : seen.s.ir = s.ir := (sameSite_readInOrder ..).ir
  have hcpu : (seen.s.withCpu (s.blockWork m p u w rn regs)).cpu = s.blockWork m p u w rn regs seen.s.cpu :=
    State.withCpu_cpu ..
  have hspec := (seen.s.withCpu (s.blockWork m p u w rn regs)).statusRestoreJump_charge 1 v
  rw [hcpu, State.blockWork_eq] at hspec
  dsimp only at hspec
  rw [hsame.spsr, hsame.cpsr, hsame.pc, State.withCpu_ir, hir] at hspec
  obtain ⟨hrestore, hbad, hnone⟩ := hspec
  refine ⟨fun saved h hm => (hrestore saved h hm).trans ?_, hbad, hnone⟩
  refine congrArg Host.Outcome.next ((State.withCpu_withCpu ..).trans (State.withCpu_congr ?_))
  have hts : seen.s.cpu.ts + (seen.s.refill saved.t v + 1) = seen.s.cpu.ts + 1 + seen.s.refill saved.t v := by omega
  rw [State.blockWork_eq]
  exact congrArg (fun ts => { seen.s.cpu with
    phys := (s.blockWork m p u w rn regs seen.s.cpu).phys
    cpsr := saved
    pc := alignPc saved.t v
    ts := ts
    lastbus := none }) hts

end

/-- Settles O46: what has been read in bus order is loaded, and then goes to the user bank or restores the status. -/
theorem userBankAndRestoringLoads : Obligations.UserBankAndRestoringLoads := by
  intro c p u w rn list s cells hc hrn hlist regs n base lowest order value back seen charged loaded toUser restored
  have hregs : regs ≠ [] := regsOf_ne_nil hlist
  have hn : 0 < n := List.length_pos_of_ne_nil hregs
  have hback : back ↔ writesBack s w rn regs = true := writesBack_iff.symm
  have hform : ∀ m word q, loaded m word q =
      { q.blockLoaded m regs word order (writesBack s w rn regs) rn (finalBase u base n) with ts := q.ts + 1 } :=
    fun m word q => congrArg (fun r : ProcState => { r with ts := q.ts + 1 }) (if_congr hback rfl rfl)
  have hcells : s.BlockAt lowest n cells →
      seen.s = charged ∧ (∀ m q, loaded m seen.word q = loaded m value q) ∧ seen.word (n - 1) = value (n - 1) := fun h => by
    obtain ⟨hword, hs⟩ := State.blockSeen_of_cells hregs h
    refine ⟨hs, fun m q => ?_, hword _ (Nat.sub_one_lt hn.ne')⟩
    have hcongr := q.blockLoaded_congr m regs (word := seen.word) (word' := value) (order := order)
      (fun k hk => hword k (mem_blockOrder.1 hk)) (writesBack s w rn regs) rn (finalBase u base n)
    rw [hform, hform, hcongr]
  have huser : s.BlockAt lowest n cells → toUser seen.s seen.word = toUser charged value := fun h => by
    obtain ⟨hs, hword, -⟩ := hcells h
    simp only [toUser, hword]
    rw [hs]
  have hrestored : ∀ saved, s.BlockAt lowest n cells → restored seen.s seen.word saved = restored charged value saved :=
    fun saved h => by
      obtain ⟨hs, hword, hlast⟩ := hcells h
      simp only [restored, hword, hlast]
      rw [hs]
  refine ⟨fun h15 => ?_, fun h15 => ?_⟩
  · have h : exec (.ldmS c p u w rn list) s = toUser seen.s seen.word := by
      rw [exec_ldmS_user hc hrn hlist h15]
      refine congrArg Host.Outcome.next (State.withCpu_congr ?_)
      rw [hform]
      rfl
    exact ⟨h, fun hb => h.trans (huser hb)⟩
  · obtain ⟨hrestore, hbad, hnone⟩ := statusRestoreJump_blockWork (s := s) (p := p) (u := u) (w := w) (rn := rn)
      s.cpu.cpsr.m regs (seen.word (n - 1))
    rw [exec_ldmS_restore hc hrn hlist h15]
    refine ⟨fun saved hsaved hm => ?_, hbad, fun hm => hnone ?_⟩
    · have both : ∀ r : Result, r = restored seen.s seen.word saved →
          r = restored seen.s seen.word saved ∧ (s.BlockAt lowest n cells → r = restored charged value saved) :=
        fun r h => ⟨h, fun hb => h.trans (hrestored saved hb)⟩
      refine both _ ((hrestore saved hsaved hm).trans (congrArg Host.Outcome.next (State.withCpu_congr ?_)))
      have hmode : (s.blockSeen p u rn regs).s.cpu.cpsr.m = s.cpu.cpsr.m := congrArg Psr.m (sameRegs_readInOrder ..).cpsr
      rw [hform, hmode]
      rfl
    · obtain h | h := hm
      · rw [h]; rfl
      · rw [h]; rfl

end Sys2Proof.Machine

namespace Sys2Proof.Machine

/-! ### The other processor's place

s.over q is s with q in the place of the processor that is not running. Each operation of the running processor does the same
there: it commutes with over q. -/

/-- The state with another state of the other processor. -/
def State.over (s : State) (q : ProcState) : State := { s with cpus := s.cpus.put s.cur.other q }

/-- What a meaning answers, with the other processor's place replaced in a next state. -/
def overResult (q : ProcState) : Result → Result
  | .next t => .next (t.over q)
  | .fault f => .fault f
  | .refused r => .refused r

/-- What an access gives, with the other processor's place replaced in the state after it. -/
def Access.over (x : Access) (q : ProcState) : Access := ⟨x.v, x.s.over q⟩

section
variable (s : State) (q : ProcState)

@[simp] theorem State.over_cur : (s.over q).cur = s.cur := rfl
@[simp] theorem State.over_cfg : (s.over q).cfg = s.cfg := rfl
@[simp] theorem State.over_maps : (s.over q).maps = s.maps := rfl
@[simp] theorem State.over_mem : (s.over q).mem = s.mem := rfl
@[simp] theorem State.over_irqs : (s.over q).irqs = s.irqs := rfl
@[simp] theorem State.over_draws : (s.over q).draws = s.draws := rfl
@[simp] theorem State.over_waitCost (a : Word) (k : WaitClass) : (s.over q).waitCost a k = s.waitCost a k := rfl

@[simp] theorem State.over_cpu : (s.over q).cpu = s.cpu := Pair.get_put_of_ne s.cpus q (Proc.other_ne s.cur).symm

theorem Pair.put_other_modify {α : Type} (x : Pair α) (c : Proc) (v : α) (f : α → α) :
    (x.put c.other v).modify c f = (x.modify c f).put c.other v := by
  cases c
  · rfl
  · rfl

@[simp] theorem State.over_withCpu (f : ProcState → ProcState) : (s.over q).withCpu f = (s.withCpu f).over q :=
  congrArg (fun x => { s with cpus := x }) (Pair.put_other_modify s.cpus s.cur q f)

@[simp] theorem State.over_setGpr (i : Reg) (v : Word) : (s.over q).setGpr i v = (s.setGpr i v).over q :=
  State.over_withCpu ..
@[simp] theorem State.over_charge (n : Nat) : (s.over q).charge n = (s.charge n).over q := State.over_withCpu ..
@[simp] theorem State.over_advanceArm : (s.over q).advanceArm = s.advanceArm.over q := State.over_withCpu ..
@[simp] theorem State.over_advanceThumb : (s.over q).advanceThumb = s.advanceThumb.over q := State.over_withCpu ..
@[simp] theorem State.over_halt : (s.over q).halt = s.halt.over q := State.over_withCpu ..
@[simp] theorem State.over_account (a : Word) (w : Width) (seq : Bool) :
    (s.over q).account a w seq = (s.account a w seq).over q := State.over_withCpu ..
@[simp] theorem State.over_jumpTo (t : Bool) (v : Word) : (s.over q).jumpTo t v = (s.jumpTo t v).over q :=
  State.over_withCpu ..
@[simp] theorem State.over_interwork (v : Word) : (s.over q).interwork v = (s.interwork v).over q := by
  simp [State.interwork]
@[simp] theorem State.over_enterException (m : Mode) (off lr : Word) :
    (s.over q).enterException m off lr = (s.enterException m off lr).over q := State.over_withCpu ..
@[simp] theorem State.over_enterSwi (lr : Word) : (s.over q).enterSwi lr = (s.enterSwi lr).over q := by
  simp [State.enterSwi]
@[simp] theorem State.over_enterIrq : (s.over q).enterIrq = s.enterIrq.over q := by simp [State.enterIrq]

theorem fatal_over : fatal (s.over q) = overResult q (fatal s) := by
  rw [fatal, State.over_cpu]; rfl

theorem inconsistent_over : inconsistent (s.over q) = overResult q (inconsistent s) := by
  rw [inconsistent, State.over_cpu]; rfl

/-! ### Collaborators and the bus -/

@[simp] theorem State.over_ask (r : Request) : (s.over q).ask r = ⟨(s.ask r).reply, (s.ask r).s.over q⟩ := by
  simp only [State.ask_eq]
  rfl

@[simp] theorem State.over_applyCall (src : CallSource) (c : Call) :
    (s.over q).applyCall src c = (s.applyCall src c).over q := by
  cases c with
  | requestInterrupt p id =>
    simp only [State.applyCall, State.requestInterrupt]
    split <;> rfl
  | setWaitstate | writeCell =>
    simp only [State.applyCall]
    split <;> rfl
  | halt =>
    simp only [State.applyCall]
    split
    · exact State.over_halt s q
    · rfl
  | _ => rfl

@[simp] theorem State.over_applyCalls (src : CallSource) (cs : List Call) :
    (s.over q).applyCalls src cs = (s.applyCalls src cs).over q := by
  induction cs generalizing s with
  | nil => rfl
  | cons c cs ih => simp only [State.applyCalls, State.over_applyCall, ih]

@[simp] theorem State.over_memRead (a : Word) (w : Width) (seq : Bool) :
    (s.over q).memRead a w seq = (s.memRead a w seq).over q := by
  simp only [State.memRead, State.busRead, State.over_account, State.over_maps, State.over_cur, State.over_mem]
  split
  · rfl
  · simp only [State.over_ask, State.over_applyCalls, Access.over]

@[simp] theorem State.over_memWrite (a : Word) (w : Width) (v : Word) (seq : Bool) :
    (s.over q).memWrite a w v seq = (s.memWrite a w v seq).over q := by
  simp only [State.memWrite, State.busWrite, State.over_account, State.over_maps, State.over_cur, State.over_mem]
  split
  · rfl
  · simp only [State.over_ask, State.over_applyCalls]

@[simp] theorem State.over_load (a : Word) (w : Width) : (s.over q).load a w = (s.load a w).over q := by
  simp [State.load]
@[simp] theorem State.over_store (a : Word) (w : Width) (v : Word) : (s.over q).store a w v = (s.store a w v).over q := by
  simp [State.store]

@[simp] theorem Access.over_v (x : Access) : (x.over q).v = x.v := rfl
@[simp] theorem Access.over_s (x : Access) : (x.over q).s = x.s.over q := rfl

@[simp] theorem State.over_loadWordRotated (a : Word) : (s.over q).loadWordRotated a = (s.loadWordRotated a).over q := by
  simp [State.loadWordRotated, Access.over]
@[simp] theorem State.over_loadByte (a : Word) : (s.over q).loadByte a = (s.loadByte a).over q := State.over_load ..
@[simp] theorem State.over_loadHalf (a : Word) : (s.over q).loadHalf a = (s.loadHalf a).over q := by
  simp only [State.loadHalf, State.over_load, State.over_cur]
  split <;> rfl
@[simp] theorem State.over_loadSignedByte (a : Word) : (s.over q).loadSignedByte a = (s.loadSignedByte a).over q := by
  simp [State.loadSignedByte, Access.over]
@[simp] theorem State.over_loadSignedHalf (a : Word) : (s.over q).loadSignedHalf a = (s.loadSignedHalf a).over q := by
  simp only [State.loadSignedHalf, State.over_load, State.over_loadSignedByte, State.over_cur]
  split <;> rfl

@[simp] theorem State.over_applyHostWrites (hs : List HostWrite) :
    (s.over q).applyHostWrites hs = (s.applyHostWrites hs).over q := by
  induction hs generalizing s with
  | nil => rfl
  | cons h hs ih =>
    have hone : (s.over q).applyHostWrite h = (s.applyHostWrite h).over q := by
      cases h with
      | setReg =>
        simp only [State.applyHostWrite, State.over_withCpu]
        split <;> rfl
      | setHalted => exact State.over_halt s q
      | charge n => exact State.over_charge s q n
      | _ => exact State.over_withCpu s q _
    simp only [State.applyHostWrites, hone, ih]

@[simp] theorem State.over_softwareInterrupt (n : BitVec 8) (next : Word) :
    (s.over q).softwareInterrupt n next = (s.softwareInterrupt n next).over q := by
  have hh : (s.over q).hleHandles n = s.hleHandles n := rfl
  simp only [State.softwareInterrupt, hh, State.over_ask, State.over_cur, State.over_applyCalls, State.over_applyHostWrites,
    State.over_withCpu, State.over_enterSwi]
  split <;> rfl

@[simp] theorem State.over_pollIrq : (s.over q).pollIrq = s.pollIrq.over q := by
  have hdue : (s.over q).irqDue = s.irqDue := by simp [State.irqDue, State.interruptPending]
  simp only [State.pollIrq, hdue, State.over_enterIrq]
  split <;> rfl

/-! ### Blocks -/

theorem State.over_readBlock (seq : Bool) (ps : List (Reg × Word)) :
    (s.over q).readBlock seq ps = ⟨(s.readBlock seq ps).values, (s.readBlock seq ps).s.over q⟩ := by
  induction ps generalizing s seq with
  | nil => rfl
  | cons x ps ih => simp only [State.readBlock, State.over_memRead, Access.over_s, Access.over_v, ih]

theorem State.over_writeBlock (val : Reg → Word) (seq : Bool) (ps : List (Reg × Word)) :
    (s.over q).writeBlock val seq ps = (s.writeBlock val seq ps).over q := by
  induction ps generalizing s seq with
  | nil => rfl
  | cons x ps ih => simp only [State.writeBlock, State.over_memWrite, ih]

@[simp] theorem State.over_loadBlock (m : BitVec 5) (p u w : Bool) (rn : Reg) (regs : List Reg) :
    (s.over q).loadBlock m p u w rn regs =
      ⟨(s.loadBlock m p u w rn regs).values, (s.loadBlock m p u w rn regs).s.over q⟩ := by
  simp only [State.loadBlock, State.over_readBlock, State.over_cpu, State.over_cur, State.over_withCpu, State.over_setGpr]
  split <;> simp only [State.over_charge]

@[simp] theorem State.over_storeBlock (m : BitVec 5) (p u w : Bool) (rn : Reg) (regs : List Reg) :
    (s.over q).storeBlock m p u w rn regs = (s.storeBlock m p u w rn regs).over q := by
  have hval : ∀ base, (s.over q).stmValue m w rn regs base = s.stmValue m w rn regs base := fun base => by
    funext i
    simp only [State.stmValue, State.over_cpu, State.over_cfg]
  simp only [State.storeBlock, hval, State.over_writeBlock, State.over_cpu, State.over_setGpr]
  split <;> rfl

/-! ### Ends -/

@[simp] theorem State.over_writeBase (rn : Reg) (x : Transfer) : (s.over q).writeBase rn x = (s.writeBase rn x).over q := by
  simp only [State.writeBase, State.over_setGpr]
  split <;> rfl

@[simp] theorem State.over_loadPc (v : Word) : (s.over q).loadPc v = (s.loadPc v).over q := by
  simp only [State.loadPc, State.over_cur, State.over_interwork, State.over_jumpTo]
  split <;> rfl

@[simp] theorem State.over_spendCarry (sf : Bool) : (s.over q).spendCarry sf = (s.spendCarry sf).over q := by
  simp only [State.spendCarry, State.over_cur]
  split <;> rfl

@[simp] theorem State.over_multiplyCarry : (s.over q).multiplyCarry = s.multiplyCarry := by
  simp only [State.multiplyCarry, State.over_cur, State.over_cpu, State.over_draws]

end

end Sys2Proof.Machine

namespace Sys2Proof.Machine

/-! ### Answers commute with the other processor's place, shape by shape -/

section
variable {s : State} {q : ProcState}

@[simp] theorem overResult_next (t : State) : overResult q (.next t) = .next (t.over q) := rfl

@[simp] theorem overResult_ite {c : Prop} [Decidable c] (r r' : Result) :
    overResult q (if c then r else r') = if c then overResult q r else overResult q r' := apply_ite ..

theorem ifPassed_over {c : Cond} {f : State → Result} (h : f (s.over q) = overResult q (f s)) :
    ifPassed c (s.over q) f = overResult q (ifPassed c s f) := by
  simp [ifPassed, h]

theorem onlyIfA_over {f : State → Result} (h : f (s.over q) = overResult q (f s)) :
    onlyIfA (s.over q) f = overResult q (onlyIfA s f) := by
  simp only [onlyIfA, State.over_cur]
  split
  · exact h
  · exact fatal_over s q

theorem refusing_over {c : Prop} [Decidable c] {r r' : Result} (h : ¬c → r = overResult q r') :
    (if c then fatal (s.over q) else r) = overResult q (if c then fatal s else r') := by
  split
  · exact fatal_over s q
  · exact h ‹_›

theorem transfer_over {p u w : Bool} {rn : Reg} {off : Word} {f : Transfer → State → Result}
    (h : ∀ x, f x (s.over q) = overResult q (f x s)) :
    transfer p u w rn off (s.over q) f = overResult q (transfer p u w rn off s f) := by
  simp only [transfer, ProcState.armReg, State.over_cpu]
  exact refusing_over fun _ => h _

theorem transferReg_over {p u w : Bool} {rn rm : Reg} {sh : BitVec 5} {ty : ShiftType} {f : Transfer → State → Result}
    (h : ∀ x, f x (s.over q) = overResult q (f x s)) :
    transferReg p u w rn sh ty rm (s.over q) f = overResult q (transferReg p u w rn sh ty rm s f) := by
  simp only [transferReg, State.over_cpu]
  exact refusing_over fun _ => transfer_over h

theorem transferHalf_over {p u w : Bool} {rn : Reg} {off : HalfOffset} {f : Transfer → State → Result}
    (h : ∀ x, f x (s.over q) = overResult q (f x s)) :
    transferHalf p u w rn off (s.over q) f = overResult q (transferHalf p u w rn off s f) := by
  cases off with
  | imm v => exact transfer_over h
  | reg rm =>
    simp only [transferHalf, State.over_cpu]
    exact refusing_over fun _ => transfer_over h

variable (s q)

theorem statusRestoreJump_over (v : Word) : (s.over q).statusRestoreJump v = overResult q (s.statusRestoreJump v) := by
  simp only [State.statusRestoreJump, State.over_cpu, State.over_withCpu, State.over_jumpTo, inconsistent_over]
  split
  · rfl
  · simp only [overResult_ite, overResult_next]

theorem finishDp_over (op : AluOp) (sf : Bool) (rd : Reg) (a : Word) (b : Shifted) :
    finishDp op sf rd a b (s.over q) = overResult q (finishDp op sf rd a b s) := by
  simp [finishDp, writeFlags, writeResult, statusRestoreJump_over]

theorem dpImm_over (op : AluOp) (sf : Bool) (rn rd : Reg) (rot : BitVec 4) (imm8 : BitVec 8) :
    dpImm op sf rn rd rot imm8 (s.over q) = overResult q (dpImm op sf rn rd rot imm8 s) := by
  simp only [dpImm, State.immCarry, State.over_cpu, State.over_cfg, finishDp_over]

theorem dpRsi_over (op : AluOp) (sf : Bool) (rn rd : Reg) (sh : BitVec 5) (ty : ShiftType) (rm : Reg) :
    dpRsi op sf rn rd sh ty rm (s.over q) = overResult q (dpRsi op sf rn rd sh ty rm s) := by
  simp only [dpRsi, State.over_cpu, finishDp_over]

theorem dpRsr_over (op : AluOp) (sf : Bool) (rn rd rs : Reg) (ty : ShiftType) (rm : Reg) :
    dpRsr op sf rn rd rs ty rm (s.over q) = overResult q (dpRsr op sf rn rd rs ty rm s) := by
  simp only [dpRsr, State.shiftReg, State.over_cpu, State.over_cfg, State.over_charge, finishDp_over]
  exact refusing_over fun _ => rfl

theorem finishMul_over (sf : Bool) (rd : Reg) (r : Word) (n : Nat) :
    finishMul sf rd r n (s.over q) = overResult q (finishMul sf rd r n s) := by
  simp [finishMul]

theorem longMultiply_over (sf : Bool) (rdHi rdLo rs rm : Reg) (r : BitVec 64) (n : Nat) :
    longMultiply sf rdHi rdLo rs rm r n (s.over q) = overResult q (longMultiply sf rdHi rdLo rs rm r n s) :=
  refusing_over fun _ => by simp [finishLong]

theorem finishSticky_over (rd : Reg) (x : Saturated) (n : Nat) :
    finishSticky rd x n (s.over q) = overResult q (finishSticky rd x n s) := by
  simp [finishSticky]

theorem finishPlain_over (rd : Reg) (r : Word) (n : Nat) :
    finishPlain rd r n (s.over q) = overResult q (finishPlain rd r n s) := by
  simp [finishPlain]

theorem saturating_over (rn rd rm : Reg) (f : Word → Word → Saturated) :
    saturating rn rd rm f (s.over q) = overResult q (saturating rn rd rm f s) := by
  simp only [saturating, State.over_cpu, finishSticky_over]
  exact refusing_over fun _ => rfl

theorem doLdr_over (rd rn : Reg) (x : Transfer) : doLdr rd rn x (s.over q) = overResult q (doLdr rd rn x s) := by
  simp [doLdr]

theorem doStr_over (rd rn : Reg) (x : Transfer) : doStr rd rn x (s.over q) = overResult q (doStr rd rn x s) := by
  simp [doStr, State.storedReg]

theorem doLoad_over {f : State → Word → Access} (hf : ∀ s q a, f (State.over s q) a = (f s a).over q) (rd rn : Reg)
    (x : Transfer) : doLoad f rd rn x (s.over q) = overResult q (doLoad f rd rn x s) :=
  refusing_over fun _ => by simp [hf]

theorem doStore_over (w : Width) (rd rn : Reg) (x : Transfer) :
    doStore w rd rn x (s.over q) = overResult q (doStore w rd rn x s) :=
  refusing_over fun _ => by simp

theorem doLdrd_over (rd rn : Reg) (x : Transfer) : doLdrd rd rn x (s.over q) = overResult q (doLdrd rd rn x s) :=
  refusing_over fun _ => by simp

theorem doStrd_over (rd rn : Reg) (x : Transfer) : doStrd rd rn x (s.over q) = overResult q (doStrd rd rn x s) :=
  refusing_over fun _ => by simp

theorem msrCpsr_over (mask : BitVec 4) (v : Word) : msrCpsr mask v (s.over q) = overResult q (msrCpsr mask v s) := by
  simp only [msrCpsr, State.over_cpu, State.over_withCpu, inconsistent_over]
  exact refusing_over fun _ => by simp only [overResult_ite, overResult_next]

theorem msrSpsr_over (mask : BitVec 4) (v : Word) : msrSpsr mask v (s.over q) = overResult q (msrSpsr mask v s) := by
  simp only [msrSpsr, State.over_cpu, State.over_withCpu, inconsistent_over]
  split <;> rfl

theorem thumbWrite_over (rd : LowReg) (x : AluResult) (n : Nat) :
    thumbWrite rd x n (s.over q) = overResult q (thumbWrite rd x n s) := by
  simp [thumbWrite]

theorem thumbFlags_over (x : AluResult) : thumbFlags x (s.over q) = overResult q (thumbFlags x s) := by
  simp [thumbFlags]

theorem thumbPlain_over (rd : Reg) (v : Word) : thumbPlain rd v (s.over q) = overResult q (thumbPlain rd v s) := by
  simp [thumbPlain]

theorem thumbHighWrite_over (rd : Reg) (v : Word) :
    thumbHighWrite rd v (s.over q) = overResult q (thumbHighWrite rd v s) := by
  simp [thumbHighWrite, thumbPlain_over]

theorem thumbLoad_over {f : State → Word → Access} (hf : ∀ s q a, f (State.over s q) a = (f s a).over q) (rd : LowReg)
    (a : Word) : thumbLoad f rd a (s.over q) = overResult q (thumbLoad f rd a s) := by
  simp [thumbLoad, hf]

theorem thumbStore_over (w : Width) (rd : LowReg) (a : Word) :
    thumbStore w rd a (s.over q) = overResult q (thumbStore w rd a s) := by
  simp [thumbStore]

theorem execMrs_over (c : Cond) (r : Bool) (rd : Reg) : execMrs c r rd (s.over q) = overResult q (execMrs c r rd s) := by
  refine ifPassed_over (refusing_over fun _ => ?_)
  simp only [State.over_cpu, State.over_withCpu, inconsistent_over, overResult_ite]
  split
  · split <;> rfl
  · rfl

theorem execMrc_over (c : Cond) (opc1 : BitVec 3) (crn rd cp : Reg) (opc2 : BitVec 3) (crm : Reg) :
    execMrc c opc1 crn rd cp opc2 crm (s.over q) = overResult q (execMrc c opc1 crn rd cp opc2 crm s) :=
  ifPassed_over (by simp [coprocessorAllowed, fatal_over])

theorem execMcr_over (c : Cond) (opc1 : BitVec 3) (crn rd cp : Reg) (opc2 : BitVec 3) (crm : Reg) :
    execMcr c opc1 crn rd cp opc2 crm (s.over q) = overResult q (execMcr c opc1 crn rd cp opc2 crm s) :=
  ifPassed_over (by simp [coprocessorAllowed, fatal_over])

theorem execLdm_over (c : Cond) (p u w : Bool) (rn : Reg) (list : BitVec 16) :
    execLdm c p u w rn list (s.over q) = overResult q (execLdm c p u w rn list s) := by
  refine ifPassed_over (refusing_over fun _ => ?_)
  simp only [State.over_cpu, State.over_loadBlock]
  split
  · exact congrArg _ (State.over_loadPc ..)
  · exact congrArg _ (State.over_advanceArm ..)

theorem execLdmS_over (c : Cond) (p u w : Bool) (rn : Reg) (list : BitVec 16) :
    execLdmS c p u w rn list (s.over q) = overResult q (execLdmS c p u w rn list s) := by
  refine ifPassed_over (refusing_over fun _ => ?_)
  simp only [State.over_cpu, State.over_loadBlock]
  split
  · exact statusRestoreJump_over ..
  · exact congrArg _ (State.over_advanceArm ..)

theorem execTPop_over (r : Bool) (rlist : BitVec 8) : execTPop r rlist (s.over q) = overResult q (execTPop r rlist s) := by
  refine refusing_over fun _ => ?_
  simp only [State.over_cpu, State.over_cur, State.over_loadBlock]
  split
  · exact congrArg _ (State.over_interwork ..)
  · exact congrArg _ (State.over_jumpTo ..)
  · exact congrArg _ (State.over_advanceThumb ..)

theorem execPld_over (b u : Bool) (rn : Reg) (off12 : BitVec 12) :
    execPld b u rn off12 (s.over q) = overResult q (execPld b u rn off12 s) := by
  refine onlyIfA_over ?_
  simp only [State.over_cfg, State.over_advanceArm]
  split
  · exact fatal_over s q
  · rfl

end

end Sys2Proof.Machine

namespace Sys2Proof.Machine

/-! ### All instructions -/

/-- What an instruction does depends on nothing in the other processor's place and leaves it as it is. -/
theorem exec_over (i : Instr) (s : State) (q : ProcState) : exec i (s.over q) = overResult q (exec i s) := by
  cases i with
  | andImm | eorImm | subImm | rsbImm | addImm | adcImm | sbcImm | rscImm | tstImm | teqImm | cmpImm | cmnImm | orrImm
  | movImm | bicImm | mvnImm =>
    unfold exec
    exact ifPassed_over (dpImm_over ..)
  | andRsi | eorRsi | subRsi | rsbRsi | addRsi | adcRsi | sbcRsi | rscRsi | tstRsi | teqRsi | cmpRsi | cmnRsi | orrRsi
  | movRsi | bicRsi | mvnRsi =>
    unfold exec
    exact ifPassed_over (dpRsi_over ..)
  | andRsr | eorRsr | subRsr | rsbRsr | addRsr | adcRsr | sbcRsr | rscRsr | tstRsr | teqRsr | cmpRsr | cmnRsr | orrRsr
  | movRsr | bicRsr | mvnRsr =>
    unfold exec
    exact ifPassed_over (dpRsr_over ..)
  | mrs =>
    unfold exec
    exact execMrs_over ..
  | msrRegCpsr =>
    unfold exec
    refine ifPassed_over ?_
    simp only [State.over_cpu]
    exact refusing_over fun _ => msrCpsr_over ..
  | msrRegSpsr =>
    unfold exec
    refine ifPassed_over ?_
    simp only [State.over_cpu]
    exact refusing_over fun _ => msrSpsr_over ..
  | msrImm =>
    unfold exec
    refine ifPassed_over ?_
    simp only [msrSpsr_over, msrCpsr_over, overResult_ite]
  | bx | b | bl =>
    unfold exec
    refine ifPassed_over ?_
    simp [ProcState.armReg]
  | blxReg =>
    unfold exec
    refine onlyIfA_over (ifPassed_over (refusing_over fun _ => ?_))
    simp
  | clz | smulwY | smulXy =>
    unfold exec
    refine onlyIfA_over (ifPassed_over (refusing_over fun _ => ?_))
    simp only [State.over_cpu, finishPlain_over]
  | smlaXy | smlawY =>
    unfold exec
    refine onlyIfA_over (ifPassed_over (refusing_over fun _ => ?_))
    simp only [State.over_cpu, finishSticky_over]
  | smlalXy =>
    unfold exec
    refine onlyIfA_over (ifPassed_over ?_)
    simp only [State.over_cpu, longMultiply_over]
  | qadd | qsub | qdadd | qdsub =>
    unfold exec
    exact onlyIfA_over (ifPassed_over (saturating_over ..))
  | bkpt =>
    unfold exec
    exact onlyIfA_over (ifPassed_over (fatal_over s q))
  | cdp | mcrrMrrc | ldcStc =>
    unfold exec
    exact ifPassed_over (fatal_over s q)
  | mul | mla =>
    unfold exec
    refine ifPassed_over (refusing_over fun _ => ?_)
    simp only [State.over_cpu, finishMul_over]
  | umull | umlal | smull | smlal =>
    unfold exec
    refine ifPassed_over ?_
    simp only [State.over_cpu, longMultiply_over]
  | swp | swpb =>
    unfold exec
    refine ifPassed_over (refusing_over fun _ => ?_)
    simp
  | ldrh =>
    unfold exec
    exact ifPassed_over (transferHalf_over fun _ => doLoad_over _ _ State.over_loadHalf ..)
  | ldrsb =>
    unfold exec
    exact ifPassed_over (transferHalf_over fun _ => doLoad_over _ _ State.over_loadSignedByte ..)
  | ldrsh =>
    unfold exec
    exact ifPassed_over (transferHalf_over fun _ => doLoad_over _ _ State.over_loadSignedHalf ..)
  | strh =>
    unfold exec
    exact ifPassed_over (transferHalf_over fun _ => doStore_over ..)
  | ldrd =>
    unfold exec
    exact onlyIfA_over (ifPassed_over (transferHalf_over fun _ => doLdrd_over ..))
  | strd =>
    unfold exec
    exact onlyIfA_over (ifPassed_over (transferHalf_over fun _ => doStrd_over ..))
  | ldrImm | ldrtImm =>
    unfold exec
    exact ifPassed_over (transfer_over fun _ => doLdr_over ..)
  | strImm | strtImm =>
    unfold exec
    exact ifPassed_over (transfer_over fun _ => doStr_over ..)
  | ldrbImm | ldrbtImm =>
    unfold exec
    exact ifPassed_over (transfer_over fun _ => doLoad_over _ _ State.over_loadByte ..)
  | strbImm | strbtImm =>
    unfold exec
    exact ifPassed_over (transfer_over fun _ => doStore_over ..)
  | ldrReg | ldrtReg =>
    unfold exec
    exact ifPassed_over (transferReg_over fun _ => doLdr_over ..)
  | strReg | strtReg =>
    unfold exec
    exact ifPassed_over (transferReg_over fun _ => doStr_over ..)
  | ldrbReg | ldrbtReg =>
    unfold exec
    exact ifPassed_over (transferReg_over fun _ => doLoad_over _ _ State.over_loadByte ..)
  | strbReg | strbtReg =>
    unfold exec
    exact ifPassed_over (transferReg_over fun _ => doStore_over ..)
  | ldm =>
    unfold exec
    exact execLdm_over ..
  | ldmS =>
    unfold exec
    exact execLdmS_over ..
  | stm | stmS =>
    unfold exec
    refine ifPassed_over (refusing_over fun _ => ?_)
    simp
  | blxImm | tBlxSuffix =>
    unfold exec
    refine onlyIfA_over ?_
    simp
  | pld =>
    unfold exec
    exact execPld_over ..
  | swi =>
    unfold exec
    refine ifPassed_over ?_
    simp
  | mcr =>
    unfold exec
    exact execMcr_over ..
  | mrc =>
    unfold exec
    exact execMrc_over ..
  | tLslImm | tLsrImm | tAsrImm | tAddReg | tSubReg | tAddImm3 | tSubImm3 | tMovImm | tAddImm8 | tSubImm8 | tAnd
  | tEor | tLslReg | tLsrReg | tAsrReg | tAdc | tSbc | tRor | tNeg | tOrr | tBic | tMvn =>
    simp only [exec, execTLslImm, execTLsrImm, execTAsrImm, execTAddReg, execTSubReg, execTAddImm3, execTSubImm3,
      execTMovImm, execTAddImm8, execTSubImm8, execTAnd, execTEor, execTLslReg, execTLsrReg, execTAsrReg, execTAdc,
      execTSbc, execTRor, execTNeg, execTOrr, execTBic, execTMvn, State.thumbAlu, State.thumbShift, State.over_cpu,
      thumbWrite_over]
  | tMul =>
    simp only [exec, execTMul, State.over_cpu, State.over_multiplyCarry, State.over_spendCarry, thumbWrite_over]
  | tCmpImm | tTst | tCmpReg | tCmn | tCmpHi =>
    simp only [exec, execTCmpImm, execTTst, execTCmpReg, execTCmn, execTCmpHi, State.thumbAlu, State.over_cpu,
      thumbFlags_over]
  | tAddHi | tMovHi => simp only [exec, execTAddHi, execTMovHi, State.over_cpu, thumbHighWrite_over]
  | tAddPc | tAddSp | tAddSpImm =>
    simp only [exec, execTAddPc, execTAddSp, execTAddSpImm, State.over_cpu, thumbPlain_over]
  | tBx => simp [exec, execTBx]
  | tBlxReg =>
    unfold exec
    refine onlyIfA_over (refusing_over fun _ => ?_)
    simp
  | tLdrPc | tLdrReg | tLdrImm | tLdrSp =>
    simp only [exec, execTLdrPc, execTLdrReg, execTLdrImm, execTLdrSp, State.registerSum, State.over_cpu]
    exact thumbLoad_over _ _ State.over_loadWordRotated ..
  | tLdrbReg | tLdrbImm =>
    simp only [exec, execTLdrbReg, execTLdrbImm, State.registerSum, State.over_cpu]
    exact thumbLoad_over _ _ State.over_loadByte ..
  | tLdrhReg | tLdrhImm =>
    simp only [exec, execTLdrhReg, execTLdrhImm, State.registerSum, State.over_cpu]
    exact thumbLoad_over _ _ State.over_loadHalf ..
  | tLdsbReg =>
    simp only [exec, execTLdsbReg, State.registerSum, State.over_cpu]
    exact thumbLoad_over _ _ State.over_loadSignedByte ..
  | tLdshReg =>
    simp only [exec, execTLdshReg, State.registerSum, State.over_cpu]
    exact thumbLoad_over _ _ State.over_loadSignedHalf ..
  | tStrReg | tStrbReg | tStrhReg | tStrImm | tStrbImm | tStrhImm | tStrSp =>
    simp only [exec, execTStrReg, execTStrbReg, execTStrhReg, execTStrImm, execTStrbImm, execTStrhImm, execTStrSp,
      State.registerSum, State.over_cpu, thumbStore_over]
  | tPush | tStmia | tLdmia =>
    unfold exec
    refine refusing_over fun _ => ?_
    simp
  | tPop =>
    unfold exec
    exact execTPop_over ..
  | tBcond =>
    simp only [exec, execTBcond, State.over_cpu, State.over_jumpTo, State.over_advanceThumb, overResult_ite, overResult_next]
  | tSwi | tB | tBlPrefix | tBlSuffix =>
    simp [exec, execTSwi, execTB, execTBlPrefix, execTBlSuffix]
  | tBkpt =>
    unfold exec
    exact fatal_over s q

/-! ### A processor's step and the machine's -/

section
variable (s : State) (q : ProcState)

theorem State.over_haltedStep : (s.over q).haltedStep = s.haltedStep.over q := by
  have hpending : ∀ t : State, (t.over q).interruptPending = t.interruptPending := fun t => rfl
  have hdue : ∀ t : State, (t.over q).irqDue = t.irqDue := fun t => by
    simp only [State.irqDue, hpending, State.over_irqs, State.over_cur, State.over_cpu]
  have hwake : ∀ t : State, (t.over q).wake = t.wake.over q := fun t => State.over_withCpu ..
  simp only [State.haltedStep, State.over_cfg, State.over_cur, State.over_charge, hpending, hwake, hdue, State.over_enterIrq]
  split
  · split <;> rfl
  · rfl

theorem retire_over (r : Result) : retire (overResult q r) = overResult q (retire r) := by
  cases r with
  | next t => exact congrArg Host.Outcome.next (State.over_pollIrq t q)
  | fault | refused => rfl

theorem runFetched_over (t : Bool) (x : Access) : runFetched t (x.over q) = overResult q (runFetched t x) := by
  have hir : ∀ w, (x.s.over q).withIr w = (x.s.withIr w).over q := fun _ => rfl
  simp only [runFetched, Access.over_s, Access.over_v, State.over_cur, hir]
  split
  · exact fatal_over ..
  · rw [exec_over, retire_over]

theorem processorStep_over : (s.over q).processorStep = overResult q s.processorStep := by
  simp only [State.processorStep, State.fetch, State.over_cpu, State.over_load, State.over_haltedStep, runFetched_over,
    overResult_ite, overResult_next]

end

/-- Settles O16: both steps are p's, and p's step commutes with the other processor's place. -/
theorem otherProcessorUnseen : Obligations.OtherProcessorUnseen := by
  intro s p q s' hs hs'
  have hstep : step s = (s.select p).processorStep := by simp only [step, hs]
  have hstep' : step s' = overResult q (step s) := by
    have h' : step s' = (s'.select p).processorStep := by simp only [step, hs']
    rw [h', hstep]
    exact processorStep_over (s.select p) q
  refine ⟨fun t ht => ?_, fun f hf => by rw [hstep', hf]; rfl⟩
  have hcur : t.cur = p := ((stepped_processorStep _).elim (hstep.symm.trans ht)).cur
  rw [hstep', ht, ← hcur]
  rfl

end Sys2Proof.Machine

namespace Sys2Proof.Machine

/-! ### The bytes of an access (R62, R63) -/

theorem littleEndian_lt (bs : List Byte) : littleEndian bs < 256 ^ bs.length := by
  induction bs with
  | nil => exact Nat.one_pos
  | cons b bs ih =>
    have hb : b.toNat < 256 := b.isLt
    rw [littleEndian, List.length_cons, pow_succ]
    omega

/-- The k-th byte of a number by its bytes, lowest first. -/
theorem littleEndian_div_mod {bs : List Byte} {k : Nat} (hk : k < bs.length) :
    littleEndian bs / 256 ^ k % 256 = bs[k].toNat := by
  induction bs generalizing k with
  | nil => exact absurd hk (Nat.not_lt_zero k)
  | cons b bs ih =>
    have hb : b.toNat < 256 := b.isLt
    cases k with
    | zero =>
      rw [littleEndian, pow_zero, Nat.div_one, List.getElem_cons_zero]
      omega
    | succ k =>
      have hdiv : (b.toNat + 256 * littleEndian bs) / 256 = littleEndian bs := by omega
      rw [littleEndian, pow_succ', ← Nat.div_div_eq_div_mul, hdiv, List.getElem_cons_succ]
      exact ih (Nat.lt_of_succ_lt_succ hk)

theorem Width.size_le_four (w : Width) : w.size ≤ 4 := by cases w <;> decide

theorem toNat_ofNat_littleEndian {bs : List Byte} (h : bs.length ≤ 4) :
    (BitVec.ofNat 32 (littleEndian bs)).toNat = littleEndian bs := by
  have hpow : 256 ^ bs.length ≤ 256 ^ 4 := Nat.pow_le_pow_right (by decide) h
  rw [BitVec.toNat_ofNat]
  exact Nat.mod_eq_of_lt ((littleEndian_lt bs).trans_le hpow)

/-- The k-th byte of the word that bytes make. -/
theorem extractLsb'_ofNat_littleEndian {bs : List Byte} (h : bs.length ≤ 4) {k : Nat} (hk : k < bs.length) :
    (BitVec.ofNat 32 (littleEndian bs)).extractLsb' (8 * k) 8 = bs[k] := by
  apply BitVec.eq_of_toNat_eq
  rw [BitVec.extractLsb'_toNat, toNat_ofNat_littleEndian h, Nat.shiftRight_eq_div_pow, Nat.pow_mul]
  exact littleEndian_div_mod hk

theorem extractLsb'_shiftRight_byte (v : Word) (k : Nat) :
    (v >>> 8).extractLsb' (8 * k) 8 = v.extractLsb' (8 * (k + 1)) 8 := by
  ext i hi
  simp [Nat.mul_add, Nat.add_comm, Nat.add_left_comm]

theorem bytesOf_getElem {v : Word} {n k : Nat} (hk : k < (bytesOf v n).length) :
    (bytesOf v n)[k] = v.extractLsb' (8 * k) 8 := by
  induction n generalizing v k with
  | zero => exact absurd hk (Nat.not_lt_zero k)
  | succ n ih =>
    cases k with
    | zero => exact BitVec.setWidth_eq_extractLsb' (x := v) (by decide : 8 ≤ 32)
    | succ k => exact (ih (Nat.lt_of_succ_lt_succ hk)).trans (extractLsb'_shiftRight_byte v k)

/-- An access keeps the value's low bytes (R15). -/
theorem Width.toNat_clip (w : Width) (v : Word) : (w.clip v).toNat = v.toNat % 256 ^ w.size := by
  have hv := v.isLt
  cases w with
  | byte | half => simp only [Width.clip, Width.size, BitVec.toNat_setWidth]; omega
  | word => exact (Nat.mod_eq_of_lt hv).symm

/-- The bytes of a value, read back, are the value narrowed to the width. -/
theorem Width.ofNat_littleEndian_bytesOf (w : Width) (v : Word) :
    BitVec.ofNat 32 (littleEndian (bytesOf v w.size)) = w.clip v := by
  apply BitVec.eq_of_toNat_eq
  rw [toNat_ofNat_littleEndian ((bytesOf_length ..).trans_le w.size_le_four), littleEndian_bytesOf, Width.toNat_clip]

theorem Width.clip_clip (w : Width) (v : Word) : w.clip (w.clip v) = w.clip v := by
  apply BitVec.eq_of_toNat_eq
  rw [Width.toNat_clip, Width.toNat_clip, Nat.mod_mod]

/-- A narrowed value is the word of its own bytes. -/
theorem Width.clip_eq_ofNat_bytesOf (w : Width) (v : Word) :
    w.clip v = BitVec.ofNat 32 (littleEndian (bytesOf (w.clip v) w.size)) := by
  rw [Width.ofNat_littleEndian_bytesOf, Width.clip_clip]

/-! ### A fetched word is its bytes (R70, R90) -/

theorem toNat_append_byte {n : Nat} (x : BitVec n) (b : Byte) : (x ++ b).toNat = b.toNat + 256 * x.toNat := by
  rw [BitVec.toNat_append, ← Nat.shiftLeft_add_eq_or_of_lt b.isLt, Nat.shiftLeft_eq]
  omega

/-- Decoding the bytes of a fetch is decoding the word they make, and no byte is left over. -/
theorem decode_bytes (p : Proc) (t : Bool) {bs : List Byte} (h : bs.length = if t then 2 else 4) :
    decode p t bs = (decodeFetched p t (BitVec.ofNat 32 (littleEndian bs))).map fun i => (i, []) := by
  cases t with
  | false =>
    obtain ⟨b0, b1, b2, b3, rfl⟩ : ∃ b0 b1 b2 b3, bs = [b0, b1, b2, b3] := List.length_eq_four.1 h
    have hword : b3 ++ b2 ++ b1 ++ b0 = BitVec.ofNat 32 (littleEndian [b0, b1, b2, b3]) := by
      apply BitVec.eq_of_toNat_eq
      rw [toNat_ofNat_littleEndian (bs := [b0, b1, b2, b3]) (Nat.le_refl 4)]
      simp [toNat_append_byte, littleEndian]
    simp only [decode, decodeFetched, hword, Bool.false_eq_true, if_false]
    cases decodeArm p (BitVec.ofNat 32 (littleEndian [b0, b1, b2, b3])) <;> rfl
  | true =>
    obtain ⟨b0, b1, rfl⟩ := List.length_eq_two.1 h
    have hhalf : b1 ++ b0 = (BitVec.ofNat 32 (littleEndian [b0, b1])).setWidth 16 := by
      have hlt : littleEndian [b0, b1] < 2 ^ (8 + 8) := by simpa using littleEndian_lt [b0, b1]
      apply BitVec.eq_of_toNat_eq
      rw [BitVec.toNat_setWidth, toNat_ofNat_littleEndian (bs := [b0, b1]) (Nat.le_add_left 2 2), Nat.mod_eq_of_lt hlt]
      simp [toNat_append_byte, littleEndian]
    simp only [decode, decodeFetched, hhalf, if_true]
    cases decodeThumb p ((BitVec.ofNat 32 (littleEndian [b0, b1])).setWidth 16) <;> rfl

/-! ### A processor's step (R402) -/

section
variable {s : State} {p : Proc}

/-- The width of a fetch (R70). -/
def fetchWidth (t : Bool) : Width := if t then .half else .word

theorem fetchWidth_size (t : Bool) : (fetchWidth t).size = if t then 2 else 4 := by cases t <;> rfl

/-- The fetch of p's step (R70). -/
def State.fetchOf (s : State) (p : Proc) : Access :=
  (s.select p).load (s.cpus.get p).pc (fetchWidth (s.cpus.get p).cpsr.t)

/-- The step of a processor that is not halted runs what its fetch brings. -/
theorem step_of_run (hs : s.action = .run p) (hh : (s.cpus.get p).halted = false) :
    step s = runFetched (s.cpus.get p).cpsr.t (s.fetchOf p) := by
  have hrun : step s = (s.select p).processorStep := by simp only [step, hs]
  exact hrun.trans (if_neg (ne_true_of_eq_false hh))

/-- What the fetch brings is run by the bytes it is made of; a stop names the pc, which no bus access moves. -/
theorem step_of_decode (hs : s.action = .run p) (hh : (s.cpus.get p).halted = false) {bs : List Byte}
    (hlen : bs.length = (fetchWidth (s.cpus.get p).cpsr.t).size)
    (hv : (s.fetchOf p).v = BitVec.ofNat 32 (littleEndian bs)) :
    (∀ i, decode p (s.cpus.get p).cpsr.t bs = .ok (i, []) →
      step s = retire (exec i ((s.fetchOf p).s.withIr (s.fetchOf p).v))) ∧
    (∀ e, decode p (s.cpus.get p).cpsr.t bs = .error e →
      step s = .fault (.unsupported (s.fetchOf p).v (s.cpus.get p).pc)) := by
  have hcur : (s.fetchOf p).s.cur = p := (keeps_load (s.select p) ..).cur
  have hpc : (s.fetchOf p).s.cpu.pc = (s.cpus.get p).pc := (sameRegs_memRead (s.select p) ..).pc
  rw [decode_bytes p _ (hlen.trans (fetchWidth_size _)), ← hv, step_of_run hs hh, runFetched, hcur]
  cases h : decodeFetched p (s.cpus.get p).cpsr.t (s.fetchOf p).v with
  | ok i =>
    refine ⟨fun j hj => ?_, fun e he => ?_⟩
    · cases hj; rfl
    · cases he
  | error e =>
    refine ⟨fun j hj => ?_, fun e' _ => ?_⟩
    · cases hj
    · rw [← hpc]; rfl

end

/-- Settles O5: what the fetch brings, from memory or the bus, is the word of the decoded bytes. -/
theorem stepRunsDecoded : Obligations.StepRunsDecoded := by
  intro s p i hs hh t w a s1 fetched x v
  have haccount : s1.account a w (s1.cpu.sequential a w) = fetched := State.withCpu_congr rfl
  refine ⟨fun cells hcells hdec => ?_, fun hnone hdec => ?_⟩
  · have hat : s1.cellsAt (s.cpus.get p).pc w = some cells := hcells
    have hfetch : s.fetchOf p = ⟨s.mem.readCells cells, fetched⟩ := haccount ▸ State.memRead_of_cells hat
    have hlen : (cells.map s.mem.get).length = w.size := (List.length_map ..).trans (cellsIn_length hcells)
    have hstep := (step_of_decode hs hh hlen (congrArg Access.v hfetch)).1 i hdec
    rw [hfetch] at hstep
    exact hstep
  · have hat : s1.cellsAt (s.cpus.get p).pc w = none := hnone
    have hfetch : s.fetchOf p = ⟨v, x.s.applyCalls .read x.reply.calls⟩ := by
      have hx : x = ⟨fetched.answer, fetched.afterAsking _⟩ := State.ask_eq ..
      have hread := State.memRead_of_no_cells (s1.cpu.sequential a w) hat
      rw [show w.align (s.cpus.get p).pc = a from rfl, haccount] at hread
      simp only [v, hx]
      exact hread
    have hv : (s.fetchOf p).v = BitVec.ofNat 32 (littleEndian (bytesOf v w.size)) :=
      (congrArg Access.v hfetch).trans (Width.clip_eq_ofNat_bytesOf ..)
    have hstep := (step_of_decode hs hh (bytesOf_length ..) hv).1 i hdec
    rw [hfetch] at hstep
    exact hstep

/-- Settles O6: a fetch that decodes to nothing is a stop, whatever gave the word. -/
theorem undefinedWordIsFatal : Obligations.UndefinedWordIsFatal := by
  intro s p e hs hh t w a answer v
  refine ⟨fun cells hcells hdec => ?_, fun hnone hdec => ?_⟩
  · have hat : (s.select p).cellsAt (s.cpus.get p).pc w = some cells := hcells
    have hfetch : (s.fetchOf p).v = s.mem.readCells cells := congrArg Access.v (State.memRead_of_cells hat)
    have hlen : (cells.map s.mem.get).length = w.size := (List.length_map ..).trans (cellsIn_length hcells)
    rw [← hfetch]
    exact (step_of_decode hs hh hlen hfetch).2 e hdec
  · have hat : (s.select p).cellsAt (s.cpus.get p).pc w = none := hnone
    have hanswer : (s.select p).answer = answer := rfl
    have hfetch : (s.fetchOf p).v = v :=
      (congrArg Access.v (State.memRead_of_no_cells _ hat)).trans (congrArg (fun r : Reply => w.clip r.value) hanswer)
    have hv := hfetch.trans (Width.clip_eq_ofNat_bytesOf ..)
    rw [← hfetch]
    exact (step_of_decode hs hh (bytesOf_length ..) hv).2 e hdec

end Sys2Proof.Machine

namespace Sys2Proof.Machine

/-! ### An access that meets memory (R60, R63, R66, R75) -/

/-- The cells of an access stand behind its addresses, one each. -/
theorem cellIn_of_cellsIn {map : List Region} {a n : Nat} {cells : List Nat} (h : cellsIn map a n = some cells) {k : Nat}
    (hk : k < n) : cellIn map (a + k) = cells[k]? := by
  induction n generalizing a k cells with
  | zero => exact absurd hk (Nat.not_lt_zero k)
  | succ n ih =>
    simp only [cellsIn] at h
    split at h
    · next c cs hc hcs =>
      cases h
      cases k with
      | zero => exact hc
      | succ k =>
        rw [List.getElem?_cons_succ, ← ih hcs (Nat.lt_of_succ_lt_succ hk)]
        congr 1
        omega
    · cases h

section
variable {m : Memory} {cells : List Nat} {k : Nat} (hlen : cells.length ≤ 4) (hk : k < cells.length)
include hlen

theorem Memory.readCells_lt : (m.readCells cells).toNat < 256 ^ cells.length := by
  have hmap : (cells.map m.get).length = cells.length := List.length_map ..
  rw [Memory.readCells, toNat_ofNat_littleEndian (hmap.trans_le hlen), ← hmap]
  exact littleEndian_lt _

include hk

theorem Memory.readCells_byte : (m.readCells cells).extractLsb' (8 * k) 8 = m.get (cells.getD k 0) := by
  have hmap : (cells.map m.get).length = cells.length := List.length_map ..
  rw [Memory.readCells, extractLsb'_ofNat_littleEndian (hmap.trans_le hlen) (hk.trans_eq hmap.symm), List.getElem_map,
    List.getD_eq_getElem _ _ hk]

end

section
variable {m : Memory} {cells : List Nat} (hm : m.wf) (hcells : cells.Nodup)
include hm hcells

/-- Each cell written holds its byte of the value. -/
theorem Memory.writeCells_byte (v : Word) {k : Nat} (hk : k < cells.length) :
    (m.writeCells cells (bytesOf v cells.length)).get (cells.getD k 0) = v.extractLsb' (8 * k) 8 := by
  have hmap := Memory.map_get_writeCells hm cells _ hcells (bytesOf_length v _).symm
  have hbyte := congrArg (·[k]?) hmap
  rw [List.getElem?_map, List.getElem?_eq_getElem hk, List.getElem?_eq_getElem (hk.trans_eq (bytesOf_length v _).symm),
    bytesOf_getElem] at hbyte
  rw [List.getD_eq_getElem _ _ hk]
  exact Option.some.inj hbyte

/-- What has been written reads as the value narrowed to the width. -/
theorem Memory.readCells_writeCells {w : Width} (hlen : cells.length = w.size) (v : Word) :
    (m.writeCells cells (bytesOf v w.size)).readCells cells = w.clip v := by
  rw [Memory.readCells, Memory.map_get_writeCells hm cells _ hcells (hlen.trans (bytesOf_length v _).symm)]
  exact w.ofNat_littleEndian_bytesOf v

end

/-- Settles O40: a read is the cells' word and a write the value's bytes, each beside the account of the access. -/
theorem memoryAccess : Obligations.MemoryAccess := by
  intro s addr w v cells hcells a n sequential row cost charged
  have ha : w.align addr = a := by
    cases w with
    | byte => rfl
    | half => exact clear_bit0_eq addr
    | word => exact clear_bits01_eq addr
  have hn : w.size = n := by cases w <;> rfl
  have hlen : cells.length = n := hn ▸ cellsIn_length hcells
  have hfour : cells.length ≤ 4 := hlen.trans_le (hn ▸ w.size_le_four)
  have hcost : s.waitCost a (waitClass w (s.cpu.sequential a w)) = cost := by
    simp only [State.waitCost_eq, cost]
    cases w <;> cases s.cpu.sequential a _ <;> rfl
  have hcharged : s.account (w.align addr) w (s.cpu.sequential (w.align addr) w) = charged := by
    rw [ha, State.account, hcost]
  have hload : s.load addr w = ⟨s.mem.readCells cells, charged⟩ := hcharged ▸ State.memRead_of_cells hcells
  have hstore : s.store addr w v = { charged with mem := s.mem.writeCells cells (bytesOf v w.size) } :=
    hcharged ▸ State.memWrite_of_cells hcells
  have hagain : ((s.store addr w v).load addr w).v = (s.store addr w v).mem.readCells cells := by
    have hat : (s.store addr w v).cellsAt addr w = some cells := by
      rw [hstore]
      exact hcells
    exact congrArg Access.v (State.memRead_of_cells hat)
  have hmem : (s.store addr w v).mem = s.mem.writeCells cells (bytesOf v w.size) := congrArg State.mem hstore
  refine ⟨?_, hlen, fun k hk => ?_, congrArg Access.s hload, fun k hk => ?_, ?_, ?_,
    fun c hc => ?_, fun hwf hnodup => ⟨fun k hk => ?_, ?_⟩⟩
  · rw [ProcState.sequential_iff, hn]
  · exact ha ▸ cellIn_of_cellsIn hcells (hk.trans_eq hn.symm)
  · rw [hload]
    exact Memory.readCells_byte hfour (hk.trans_eq hlen.symm)
  · rw [hload, ← hlen]
    exact Memory.readCells_lt hfour
  · rw [hmem, hstore]
  · rw [hmem]
    exact Memory.get_writeCells_other _ _ _ hc
  · rw [hmem, hn, ← hlen]
    exact Memory.writeCells_byte hwf hnodup v (hk.trans_eq hlen.symm)
  · rw [hagain, hmem, Memory.readCells_writeCells hwf hnodup (hlen.trans hn.symm)]
    cases w with
    | byte => exact setWidth_setWidth_eq_and v (by decide)
    | half => exact setWidth_setWidth_eq_and v (by decide)
    | word => rfl

end Sys2Proof.Machine

namespace Sys2Proof.Machine

/-! ### Loads of halfwords and signed values, by processor (R67, R68) -/

section
variable (s : State) (a : Word)

theorem toNat_extractLsb'_one : (a.extractLsb' 0 1).toNat = a.toNat % 2 := by
  rw [BitVec.extractLsb'_toNat]; rfl

theorem loadWordRotated_eq :
    s.loadWordRotated a = ⟨(s.load a .word).v.rotateRight (8 * (a.toNat % 4)), (s.load a .word).s⟩ := by
  rw [← toNat_extractLsb'_two]; rfl

/-- An odd halfword address rotates the halfword on B alone. -/
theorem loadHalf_eq : s.loadHalf a =
    ⟨if s.cur = .B ∧ a.toNat % 2 = 1 then (s.load a .half).v.rotateRight 8 else (s.load a .half).v,
      (s.load a .half).s⟩ := by
  unfold State.loadHalf
  rw [toNat_extractLsb'_one]
  cases s.cur with
  | A => rfl
  | B =>
    obtain h | h := Nat.mod_two_eq_zero_or_one a.toNat
    · simp [h, BitVec.rotateRight_def]
    · simp [h]

theorem loadSignedHalf_odd (hB : s.cur = .B) (hodd : a.toNat % 2 = 1) : s.loadSignedHalf a = s.loadSignedByte a := by
  have hbit : a.getLsbD 0 = true := by simp [BitVec.getLsbD, Nat.testBit_zero, hodd]
  simp only [State.loadSignedHalf, hB, hbit]

theorem loadSignedHalf_plain (h : ¬(s.cur = .B ∧ a.toNat % 2 = 1)) :
    s.loadSignedHalf a = ⟨((s.load a .half).v.setWidth 16).signExtend 32, (s.load a .half).s⟩ := by
  unfold State.loadSignedHalf
  split
  · next hB hbit =>
    refine absurd ⟨hB, ?_⟩ h
    simpa [BitVec.getLsbD, Nat.testBit_zero] using hbit
  · rfl

end

/-! ### Halfword and signed transfers -/

section
variable {p u w : Bool} {rn rd : Reg} {s : State}

theorem transferHalf_eq {off : HalfOffset} (hoff : off.Allowed) (hbase : (!p || w) = true → rn ≠ 15#4)
    (f : Transfer → State → Result) :
    transferHalf p u w rn off s f = f (s.transferPlan p u w rn (s.halfOffset off)) s := by
  cases off with
  | imm v => exact transfer_eq _ hbase f
  | reg rm => exact (if_neg hoff).trans (transfer_eq _ hbase f)

theorem doLoad_plan (f : State → Word → Access) (off : Word) (hrd : rd ≠ 15#4) :
    doLoad f rd rn (s.transferPlan p u w rn off) s =
      .next ((f s (s.transferAddr p u rn off)).s.loadedArm p w rn rd (s.offsetAddr u rn off)
        (f s (s.transferAddr p u rn off)).v) :=
  (if_neg hrd).trans (congrArg _ (State.loaded_eq ..))

theorem doStore_plan (wd : Width) (off : Word) (hrd : rd ≠ 15#4) :
    doStore wd rd rn (s.transferPlan p u w rn off) s =
      .next ((s.store (s.transferAddr p u rn off) wd (s.cpu.gpr rd)).storedArm p w rn (s.offsetAddr u rn off)) :=
  (if_neg hrd).trans (congrArg _ (State.stored_eq ..))

end

/-- Settles O43: each form is a load or a store at the address of R220, odd addresses by the processor. -/
theorem halfwordAndSignedTransfers : Obligations.HalfwordAndSignedTransfers := by
  intro c p u w rn rd off s hc hoff hbase hrd offaddr addr half byte oddOnB signedHalf signedByte
  have load : ∀ f : State → Word → Access, (ifPassed c s fun s => transferHalf p u w rn off s (doLoad f rd rn)) =
      .next ((f s addr).s.loadedArm p w rn rd offaddr (f s addr).v) := fun f => by
    rw [ifPassed_of_passed hc, transferHalf_eq hoff hbase, doLoad_plan f _ hrd]
  refine ⟨?_, load _, fun h => ?_, fun h => ?_, ?_⟩
  · exact (load State.loadHalf).trans (by rw [loadHalf_eq])
  · exact (load State.loadSignedHalf).trans (by rw [loadSignedHalf_plain s addr h])
  · exact (load State.loadSignedHalf).trans (by rw [loadSignedHalf_odd s addr h.1 h.2]; rfl)
  · have store : (ifPassed c s fun s => transferHalf p u w rn off s (doStore .half rd rn)) = _ := ifPassed_of_passed hc _
    exact store.trans ((transferHalf_eq hoff hbase _).trans (doStore_plan _ _ hrd))

/-! ### Doublewords and swaps -/

section
variable {s : State} {p u w : Bool} {rn rd : Reg}

/-- The operands of a doubleword that R231 and R232 do not refuse. -/
theorem pairRefused_plan (off : Word) (heven : rd.getLsbD 0 = false) (hrd : rd ≠ 14#4)
    (hbase : (!p || w) = true → rn ≠ rd ∧ rn ≠ rd + 1#4) :
    ¬pairRefused rd rn (s.transferPlan p u w rn off) = true := by
  rw [pairRefused, heven]
  cases hback : !p || w with
  | false => simp [State.transferPlan, hback, hrd]
  | true =>
    obtain ⟨hlo, hhi⟩ := hbase hback
    simp [State.transferPlan, hback, hrd, hlo, hhi]

/-- The two words, then the base, then an internal cycle and the next instruction. -/
theorem State.loadedPair_eq (x : State) (off lo hi : Word) :
    ((((x.withCpu fun q => (q.setGpr rd lo).setGpr (rd + 1#4) hi).writeBase rn (s.transferPlan p u w rn off)).charge
      1).advanceArm) = x.withCpu fun q =>
        { ((q.setGpr rd lo).setGpr (rd + 1#4) hi).based p w rn (s.offsetAddr u rn off) with
          pc := q.pc + 4#32, ts := q.ts + 1 } := by
  rw [State.writeBase_plan, State.advanceArm, State.charge, State.withCpu_withCpu, State.withCpu_withCpu,
    State.withCpu_withCpu]
  refine State.withCpu_congr ?_
  unfold ProcState.based
  split
  · rfl
  · rfl

end

/-- Settles O44: the pair's work at the word address of R226, the swap's operands read before its accesses. -/
theorem doublewordsAndSwaps : Obligations.DoublewordsAndSwaps := by
  refine ⟨fun c p u w rn rd off s hA hc hoff heven hrd hbase => ?_, fun c rn rd rm s hc hrn hrd hrm => ?_⟩
  · have pair : ∀ f : Transfer → State → Result,
        (onlyIfA s fun s => ifPassed c s fun s => transferHalf p u w rn off s f) =
          f (s.transferPlan p u w rn (s.halfOffset off)) s := fun f => by
      rw [onlyIfA_of_A hA, ifPassed_of_passed hc, transferHalf_eq hoff fun h => (hbase h).1]
    have hr := pairRefused_plan (s := s) (u := u) (s.halfOffset off) heven hrd fun h => (hbase h).2
    exact ⟨(pair _).trans ((if_neg hr).trans (congrArg _ (State.loadedPair_eq ..))),
      (pair _).trans ((if_neg hr).trans (congrArg _ (State.stored_eq ..)))⟩
  · have hr : ¬[rn, rd, rm].contains 15#4 = true := by simp [hrn.symm, hrd.symm, hrm.symm]
    have swap : ∀ r : Result, (ifPassed c s fun s => if [rn, rd, rm].contains 15#4 then fatal s else r) = r := fun r =>
      (ifPassed_of_passed hc _).trans (if_neg hr)
    dsimp only
    rw [← toNat_extractLsb'_two]
    exact ⟨swap _, swap _⟩

/-! ### Thumb transfers -/

/-- Settles O58: each is the shared load or store at its address, the offset scaled. -/
theorem thumbTransfers : Obligations.ThumbTransfers := by
  intro ro rb rd off5 word8 s b v sum words halves bytes stack literal word byte half signedByte signedHalf put
  have scaled : ∀ {n : Nat} (x : BitVec n), wordOffset x.toNat = 4#32 * x.setWidth 32 := fun x =>
    (wordOffset_eq x).trans (BitVec.mul_comm ..)
  have hwords : s.cpu.low rb + wordOffset off5.toNat = words := congrArg (b + ·) (scaled off5)
  have hstack : s.cpu.gpr 13#4 + wordOffset word8.toNat = stack := congrArg (s.cpu.gpr 13#4 + ·) (scaled word8)
  have hliteral : ((s.cpu.pc + 4#32) &&& 0xFFFFFFFC#32) + wordOffset word8.toNat = literal :=
    congrArg (((s.cpu.pc + 4#32) &&& 0xFFFFFFFC#32) + ·) (scaled word8)
  have hhalves : s.cpu.low rb + BitVec.ofNat 32 (2 * off5.toNat) = halves :=
    congrArg (b + ·) ((halfOffset_eq off5).trans (BitVec.mul_comm ..))
  have hword : ∀ a, thumbLoad State.loadWordRotated rd a s = word a := fun a => by
    rw [thumbLoad, loadWordRotated_eq]; rfl
  have hhalf : ∀ a, thumbLoad State.loadHalf rd a s = half a := fun a => by
    rw [thumbLoad, loadHalf_eq]; rfl
  have hsigned : ∀ a, thumbLoad State.loadSignedHalf rd a s = signedHalf a := fun a => by
    by_cases h : s.cur = .B ∧ a.toNat % 2 = 1
    · rw [thumbLoad, loadSignedHalf_odd s a h.1 h.2]
      exact (if_pos h).symm
    · rw [thumbLoad, loadSignedHalf_plain s a h]
      exact (if_neg h).symm
  refine ⟨(hword _).trans (congrArg word hliteral), hword _, (hword _).trans (congrArg word hwords),
    (hword _).trans (congrArg word hstack), rfl, rfl, hhalf _, (hhalf _).trans (congrArg half hhalves), rfl, hsigned _, rfl,
    congrArg (put · .word) hwords, congrArg (put · .word) hstack, rfl, rfl, rfl, congrArg (put · .half) hhalves⟩

end Sys2Proof.Machine

namespace Sys2Proof.Machine

/-! ### LDM (R238 to R240) -/

/-- Internal cycles before a jump are cycles of the jump. -/
theorem ProcState.jumped_charge (q : ProcState) (k : Nat) (t : Bool) (v : Word) (n : Nat) :
    (q.charge k).jumped t v n = q.jumped t v (n + k) := by
  have hts : q.ts + k + n = q.ts + (n + k) := by omega
  exact congrArg (fun ts => { q with pc := alignPc t v, ts := ts, lastbus := none }) hts

theorem ProcState.exchanged_charge (q : ProcState) (k : Nat) (v : Word) (n : Nat) :
    (q.charge k).exchanged v n = q.exchanged v (n + k) := by
  rw [ProcState.exchanged, ProcState.jumped_charge]
  rfl

theorem keeps_readInOrder (s : State) (lowest : Word) (seq : Bool) (ks : List Nat) :
    Keeps s (s.readInOrder lowest seq ks).s := by
  induction ks generalizing s seq with
  | nil => exact Keeps.refl s
  | cons k ks ih => exact (keeps_memRead s ..).trans (ih _ true)

section
variable (s : State) (m : BitVec 5) (p u w : Bool) (rn : Reg) (regs : List Reg) (q : ProcState)

theorem State.blockWork_ts : (s.blockWork m p u w rn regs q).ts = q.ts := by rw [State.blockWork_eq]

theorem State.blockWork_pc : (s.blockWork m p u w rn regs q).pc = q.pc := by rw [State.blockWork_eq]

end

section
variable {s : State} {c : Cond} {p u w : Bool} {rn : Reg} {list : BitVec 16}

/-- A load of R15 after a block's work and its internal cycle, by processor. -/
theorem State.loadPc_charge (t : State) (f : ProcState → ProcState) (v : Word) : ((t.withCpu f).charge 1).loadPc v =
    t.withCpu fun q =>
      if t.cur = .A then ((f q).charge 1).exchanged v (t.refill (v.getLsbD 0) v)
      else ((f q).charge 1).jumped false v (t.refill false v) := by
  simp only [ProcState.exchanged_charge, ProcState.jumped_charge]
  have hcur : ((t.withCpu f).charge 1).cur = t.cur := rfl
  rw [State.loadPc, hcur]
  cases t.cur with
  | A => exact (State.interwork_charge ..).trans (State.withCpu_withCpu ..)
  | B => exact (State.jumpTo_charge ..).trans (State.withCpu_withCpu ..)

/-- How a processor leaves an LDM (R240): for the next instruction, or for the word that R15 has got. -/
def State.leaveLdm (t : State) (list : BitVec 16) (target : Word) (q : ProcState) : ProcState :=
  if list.getLsbD 15 = false then q.advance 4#32
  else if t.cur = .A then q.exchanged target (t.refill (target.getLsbD 0) target)
  else q.jumped false target (t.refill false target)

/-- LDM by what has been read: the block's work, an internal cycle, and its leaving. -/
theorem exec_ldm (hc : condPassed c s.cpu.cpsr = true) (hrn : rn ≠ 15#4) (hlist : list ≠ 0#16) :
    let seen := s.blockSeen p u rn (regsOf list)
    exec (.ldm c p u w rn list) s = .next (seen.s.withCpu fun q =>
      seen.s.leaveLdm list (seen.word ((regsOf list).length - 1))
        ((s.blockWork s.cpu.cpsr.m p u w rn (regsOf list) q).charge 1)) := by
  intro seen
  have hr : ¬blockRefused rn (regsOf list) = true := by simp [blockRefused_eq_false hrn hlist]
  rw [exec, execLdm, ifPassed_of_passed hc, if_neg hr]
  simp only [State.loadBlock_eq, State.pcValue_blockSeen hlist, State.leaveLdm]
  cases list.getLsbD 15 with
  | false => exact congrArg Host.Outcome.next ((State.withCpu_withCpu ..).trans (State.withCpu_withCpu ..))
  | true => exact congrArg Host.Outcome.next (State.loadPc_charge ..)

end

/-- Settles O45: what has been read in bus order is loaded; where memory alone is behind the block, that is its words. -/
theorem blockLoads : Obligations.BlockLoads := by
  intro c p u w rn list s cells hc hrn hlist regs n base lowest order value back seen charged loaded outcome
  have hregs : regs ≠ [] := regsOf_ne_nil hlist
  have hn : 0 < n := List.length_pos_of_ne_nil hregs
  have hback : back ↔ writesBack s w rn regs = true := writesBack_iff.symm
  have hwork : (s.blockWork s.cpu.cpsr.m p u w rn regs seen.s.cpu).charge 1 = loaded seen.word seen.s.cpu := by
    have hmode : seen.s.cpu.cpsr.m = s.cpu.cpsr.m := congrArg Psr.m (sameRegs_readInOrder ..).cpsr
    rw [ProcState.charge, State.blockWork_ts, ← hmode]
    exact congrArg (fun r : ProcState => { r with ts := seen.s.cpu.ts + 1 }) (if_congr hback.symm rfl rfl)
  have hpc : (loaded seen.word seen.s.cpu).pc = seen.s.cpu.pc := by
    rw [← hwork, ProcState.charge_pc, State.blockWork_pc]
  have hcur : seen.s.cur = s.cur := (keeps_readInOrder ..).cur
  have hseen : exec (.ldm c p u w rn list) s = outcome seen.s seen.word := by
    refine (exec_ldm hc hrn hlist).trans (congrArg Host.Outcome.next (State.withCpu_congr ?_))
    refine (congrArg (seen.s.leaveLdm list (seen.word (n - 1))) hwork).trans ?_
    rw [State.leaveLdm, ProcState.advance, hpc, hcur]
    rfl
  have hcells : s.BlockAt lowest n cells → outcome seen.s seen.word = outcome charged value := fun hblock => by
    obtain ⟨hword, hs⟩ : (∀ k < n, seen.word k = value k) ∧ seen.s = charged := State.blockSeen_of_cells hregs hblock
    have hloaded : ∀ q, loaded seen.word q = loaded value q := fun q =>
      congrArg (fun r : ProcState => { (if back then r.setGpr rn (finalBase u base n) else r) with ts := q.ts + 1 })
        (q.loadRegs_congr _ regs fun k hk => hword k (mem_blockOrder.1 hk))
    have hlast : seen.word (n - 1) = value (n - 1) := hword _ (Nat.sub_one_lt hn.ne')
    simp only [outcome, hloaded, hlast]
    rw [hs]
  exact ⟨hseen, fun hblock => hseen.trans (hcells hblock)⟩

end Sys2Proof.Machine

namespace Sys2Proof.Machine

/-! ### Writing a block in order (R236) -/

section
variable (s : State) (lowest : Word) (seq : Bool) (ks : List Nat)

theorem State.writeBlock_map (val : Reg → Word) (regs : List Reg) :
    s.writeBlock val seq (ks.map fun k => (regs.getD k 0#4, blockAddr lowest k)) =
      s.storeInOrder lowest (fun k => val (regs.getD k 0#4)) seq ks := by
  induction ks generalizing s seq with
  | nil => rfl
  | cons k ks ih => exact ih _ true

theorem State.storeInOrder_congr {value value' : Nat → Word} (h : ∀ k ∈ ks, value k = value' k) :
    s.storeInOrder lowest value seq ks = s.storeInOrder lowest value' seq ks := by
  induction ks generalizing s seq with
  | nil => rfl
  | cons k ks ih =>
    rw [State.storeInOrder, State.storeInOrder, h k List.mem_cons_self]
    exact ih _ _ fun j hj => h j (List.mem_cons_of_mem k hj)

end

/-- The same state with other memory. -/
def State.withMem (s : State) (m : Memory) : State := { s with mem := m }

section
variable {s : State} {lowest : Word} {ks : List Nat} {cells : Nat → List Nat}

/-- What is in memory does not bear on the account of a block's accesses. -/
theorem State.readInOrder_withMem (m : Memory) (h : ∀ k ∈ ks, s.cellsAt (blockAddr lowest k) .word = some (cells k)) :
    ((s.withMem m).readInOrder lowest true ks).s = (s.readInOrder lowest true ks).s.withMem m := by
  rw [State.readInOrder_rest (s := s.withMem m) h, State.readInOrder_rest h]
  rfl

/-- Where memory alone is behind a block, its stores cost what its loads cost and write its values, nothing else. -/
theorem State.storeInOrder_of_cells (value : Nat → Word) (seq : Bool)
    (h : ∀ k ∈ ks, s.cellsAt (blockAddr lowest k) .word = some (cells k)) :
    s.storeInOrder lowest value seq ks = (s.readInOrder lowest seq ks).s.withMem (writeInOrder s.mem cells value ks) := by
  induction ks generalizing s seq with
  | nil => rfl
  | cons k ks ih =>
    have hk := h k List.mem_cons_self
    let t := s.account (Width.word.align (blockAddr lowest k)) .word seq
    let stored := t.withMem (s.mem.writeCells (cells k) (bytesOf (value k) 4))
    have hat : ∀ j ∈ ks, t.cellsAt (blockAddr lowest j) .word = some (cells j) := fun j hj =>
      h j (List.mem_cons_of_mem k hj)
    calc s.storeInOrder lowest value seq (k :: ks)
      _ = stored.storeInOrder lowest value true ks :=
        congrArg (fun x : State => x.storeInOrder lowest value true ks) (State.memWrite_of_cells hk)
      _ = (stored.readInOrder lowest true ks).s.withMem (writeInOrder stored.mem cells value ks) := ih true hat
      _ = (t.readInOrder lowest true ks).s.withMem (writeInOrder s.mem cells value (k :: ks)) :=
        (congrArg (State.withMem · (writeInOrder s.mem cells value (k :: ks))) (t.readInOrder_withMem _ hat)).trans rfl
      _ = (s.readInOrder lowest seq (k :: ks)).s.withMem (writeInOrder s.mem cells value (k :: ks)) := by
        rw [State.readInOrder, State.memRead_of_cells hk]

end

/-! ### STM (R241 to R243) -/

theorem nodup_regsOf (list : BitVec 16) : (regsOf list).Nodup := List.Nodup.filter _ (by decide)

section
variable (s : State) (m : BitVec 5) (p u w : Bool) (rn : Reg) (regs : List Reg)

/-- The value stored at place k of a block: a listed base as its old value at the lowest place, as its new one elsewhere. -/
def State.stmWord (newBase : Word) (k : Nat) : Word :=
  let i := regs.getD k 0#4
  if i = 15#4 then s.cpu.pc + s.cfg.storePcOffset
  else if w = true ∧ i = rn ∧ bank m i = bank s.cpu.cpsr.m rn then if k = 0 then s.cpu.gpr rn else newBase
  else s.cpu.bankReg m i

variable {regs}

/-- The base is the lowest register listed if it stands at the lowest place. -/
theorem head?_eq_iff_place (hregs : regs.Nodup) {k : Nat} (hk : k < regs.length) (hrn : regs.getD k 0#4 = rn) :
    regs.head? = some rn ↔ k = 0 := by
  rw [List.getD_eq_getElem _ _ hk] at hrn
  have hpos : 0 < regs.length := Nat.zero_lt_of_lt hk
  rw [List.head?_eq_getElem?, List.getElem?_eq_getElem hpos, Option.some.injEq, ← hrn, hregs.getElem_inj_iff, eq_comm]

theorem State.stmValue_place (hregs : regs.Nodup) (newBase : Word) {k : Nat} (hk : k < regs.length) :
    s.stmValue m w rn regs newBase (regs.getD k 0#4) = s.stmWord m w rn regs newBase k := by
  unfold State.stmValue State.stmWord
  refine if_congr Iff.rfl rfl (if_ctx_congr Iff.rfl (fun h => ?_) fun _ => rfl)
  exact if_congr (head?_eq_iff_place rn hregs hk h.2.1) rfl rfl

/-- STM's work: the words in bus order, then the base and the next instruction. -/
theorem State.storeBlock_eq (hregs : regs.Nodup) : (s.storeBlock m p u w rn regs).advanceArm =
    (s.storeInOrder (lowestAddr p u (s.cpu.gpr rn) regs.length)
      (s.stmWord m w rn regs (finalBase u (s.cpu.gpr rn) regs.length)) false (blockOrder u regs.length)).withCpu fun q =>
        { if w then q.setGpr rn (finalBase u (s.cpu.gpr rn) regs.length) else q with pc := q.pc + 4#32 } := by
  have hstored : ∀ k ∈ blockOrder u regs.length,
      s.stmValue m w rn regs (finalBase u (s.cpu.gpr rn) regs.length) (regs.getD k 0#4) = _ := fun k hk =>
    s.stmValue_place m w rn hregs _ (mem_blockOrder.1 hk)
  rw [← State.storeInOrder_congr _ _ _ _ hstored, ← State.writeBlock_map, ← busOrder_placed, ← blockLowest_eq]
  cases w with
  | false => exact State.withCpu_congr rfl
  | true => exact State.withCpu_withCpu ..

end

/-- Settles O47: both forms are one store of the block, from the current mode's bank or from the user bank. -/
theorem blockStores : Obligations.BlockStores := by
  intro c p u w rn list s cells hc hrn hlist regs n base lowest order m value finished stored
  have hr : ¬blockRefused rn regs = true := by simp [regs, blockRefused_eq_false hrn hlist]
  have hblock : ∀ bankMode, (s.storeBlock bankMode p u w rn regs).advanceArm = _ := fun bankMode =>
    s.storeBlock_eq bankMode p u w rn (nodup_regsOf list)
  have hstm : exec (.stm c p u w rn list) s = finished (s.storeInOrder lowest (value m) false order) := by
    rw [exec, execStm, ifPassed_of_passed hc, if_neg hr]
    exact congrArg Host.Outcome.next (hblock m)
  have hstmS : exec (.stmS c p u w rn list) s = finished (s.storeInOrder lowest (value Mode.usr.bits) false order) := by
    rw [exec, execStmS, ifPassed_of_passed hc, if_neg hr]
    exact congrArg Host.Outcome.next (hblock Mode.usr.bits)
  have hcells : ∀ bankMode, s.BlockAt lowest n cells →
      s.storeInOrder lowest (value bankMode) false order = stored bankMode := fun bankMode h => by
    have hn : 0 < n := List.length_pos_of_ne_nil (regsOf_ne_nil hlist)
    have hne : order ≠ [] := List.ne_nil_of_mem (mem_blockOrder.2 hn)
    have hat : ∀ k ∈ order, s.cellsAt (blockAddr lowest k) .word = some (cells k) := fun k hk => h k (mem_blockOrder.1 hk)
    rw [State.storeInOrder_of_cells _ _ hat, State.readInOrder_of_cells hne hat]
    rfl
  exact ⟨hstm, hstmS, fun h => ⟨hcells m h ▸ hstm, hcells Mode.usr.bits h ▸ hstmS⟩⟩

end Sys2Proof.Machine

namespace Sys2Proof

open Machine Laws.CodeShape BitVec
open BitVec renaming extractLsb'_append_eq_of_le → fieldAbove, extractLsb'_append_eq_of_add_le → fieldWithin

/-! The encoder writes a word field by field with `++`, and the decoder reads fields and bits. In the simp calls below a
field is read above the last part of an append (`fieldAbove`) or within it (`fieldWithin`); widths stay the sums that
these lemmas speak of (`-Nat.reduceAdd`), and bits stay in the decoder's own form (`-getLsbD_eq_getElem`). -/

/-! ### Field values read back -/

@[simp] theorem Cond.ofBits_bits (c : Cond) : Cond.ofBits c.bits = some c := by cases c <;> rfl

@[simp] theorem ShiftType.ofBits_bits (ty : ShiftType) : ShiftType.ofBits ty.bits = ty := by cases ty <;> rfl

/-! ### The ARM decode tree, branch by branch (R95) -/

section
variable {p : Proc} {c : Cond} {w : Word}

/-- The multiply space lies where bits 7 and 4 are both set. -/
theorem low_ne_multiply (h : (w.getLsbD 7 && w.getLsbD 4) = false) : w.extractLsb' 4 4 ≠ 0b1001#4 := fun e => by
  have hbits : ∀ v : BitVec 4, v = 0b1001#4 → (v.getLsbD 3 && v.getLsbD 0) = true := by decide
  have h74 : (w.getLsbD 7 && w.getLsbD 4) = true := by simpa [-getLsbD_eq_getElem] using hbits _ e
  exact Bool.noConfusion (h.symm.trans h74)

section
variable (hc : w.extractLsb' 28 4 = c.bits)
include hc

theorem decodeArm_immediateSpace (h : w.extractLsb' 25 3 = 0b001#3) : decodeArm p w = decodeImmediateSpace c w := by
  simp only [decodeArm, hc, Cond.ofBits_bits, h]

theorem decodeArm_transferImm (h : w.extractLsb' 25 3 = 0b010#3) : decodeArm p w = .ok (decodeTransferImm c w) := by
  simp only [decodeArm, hc, Cond.ofBits_bits, h]

theorem decodeArm_transferReg (h : w.extractLsb' 25 3 = 0b011#3) (h4 : w.getLsbD 4 = false) :
    decodeArm p w = .ok (decodeTransferReg c w) := by
  simp only [decodeArm, hc, Cond.ofBits_bits, h, h4, Bool.false_eq_true, if_false]

theorem decodeArm_block (h : w.extractLsb' 25 3 = 0b100#3) : decodeArm p w = .ok (decodeBlock c w) := by
  simp only [decodeArm, hc, Cond.ofBits_bits, h]

theorem decodeArm_branch (h : w.extractLsb' 25 3 = 0b101#3) :
    decodeArm p w = .ok (if w.getLsbD 24 then .bl c (w.extractLsb' 0 24) else .b c (w.extractLsb' 0 24)) := by
  simp only [decodeArm, hc, Cond.ofBits_bits, h]
  split <;> rfl

theorem decodeArm_coprocessorTransfer (h : w.extractLsb' 25 3 = 0b110#3) :
    decodeArm p w = .ok (decodeCoprocessorTransfer c w) := by
  simp only [decodeArm, hc, Cond.ofBits_bits, h]

theorem decodeArm_systemSpace (h : w.extractLsb' 25 3 = 0b111#3) : decodeArm p w = .ok (decodeSystemSpace c w) := by
  simp only [decodeArm, hc, Cond.ofBits_bits, h]
  rfl

section
variable (h : w.extractLsb' 25 3 = 0b000#3)
include h

theorem decodeArm_registerSpace : decodeArm p w = decodeRegisterSpace p c w := by
  simp only [decodeArm, hc, Cond.ofBits_bits, h]

theorem decodeArm_multiplySpace (h' : w.extractLsb' 4 4 = 0b1001#4) : decodeArm p w = decodeMultiplySpace c w := by
  rw [decodeArm_registerSpace hc h, decodeRegisterSpace, if_pos h']

theorem decodeArm_halfwordSpace (h' : w.extractLsb' 4 4 ≠ 0b1001#4) (h74 : (w.getLsbD 7 && w.getLsbD 4) = true) :
    decodeArm p w = decodeHalfwordSpace p c w := by
  rw [decodeArm_registerSpace hc h, decodeRegisterSpace, if_neg h', if_pos h74]

theorem decodeArm_miscSpace (h74 : (w.getLsbD 7 && w.getLsbD 4) = false)
    (h' : w.extractLsb' 23 2 = 0b10#2 ∧ w.getLsbD 20 = false) : decodeArm p w = decodeMiscSpace p c w := by
  rw [decodeArm_registerSpace hc h, decodeRegisterSpace, if_neg (low_ne_multiply h74), h74, if_neg Bool.false_ne_true,
    if_pos h']

section
variable (h' : ¬(w.extractLsb' 23 2 = 0b10#2 ∧ w.getLsbD 20 = false))
include h'

theorem decodeArm_dpRsi (h4 : w.getLsbD 4 = false) : decodeArm p w =
    .ok (decodeDpRsi (w.extractLsb' 21 4) c (w.getLsbD 20) (w.extractLsb' 16 4) (w.extractLsb' 12 4)
      (w.extractLsb' 7 5) (ShiftType.ofBits (w.extractLsb' 5 2)) (w.extractLsb' 0 4)) := by
  have h74 : (w.getLsbD 7 && w.getLsbD 4) = false := by rw [h4, Bool.and_false]
  rw [decodeArm_registerSpace hc h, decodeRegisterSpace, if_neg (low_ne_multiply h74), h74, if_neg Bool.false_ne_true,
    if_neg h', if_pos h4]

theorem decodeArm_dpRsr (h7 : w.getLsbD 7 = false) (h4 : w.getLsbD 4 = true) : decodeArm p w =
    .ok (decodeDpRsr (w.extractLsb' 21 4) c (w.getLsbD 20) (w.extractLsb' 16 4) (w.extractLsb' 12 4)
      (w.extractLsb' 8 4) (ShiftType.ofBits (w.extractLsb' 5 2)) (w.extractLsb' 0 4)) := by
  have h74 : (w.getLsbD 7 && w.getLsbD 4) = false := by rw [h7, Bool.false_and]
  rw [decodeArm_registerSpace hc h, decodeRegisterSpace, if_neg (low_ne_multiply h74), h74, if_neg Bool.false_ne_true,
    if_neg h', if_neg (by simp [h4])]

end
end
end
end

/-! ### The forms that the decoder keeps apart -/

/-- P = 0 with W = 1 is the T form, and not the plain row's index form (R104, R105). -/
theorem tForm_eq_false_iff {pre wb : Bool} : (!pre && wb) = false ↔ indexFormOk pre wb = true := by
  revert pre wb; decide

/-- The MCRR and MRRC pattern is one of P, U, N and W (R109). -/
theorem ne_mcrrPattern_iff {w : Word} : w.extractLsb' 21 4 ≠ 0b0010#4 ↔
    (w.getLsbD 24 || w.getLsbD 23 || !w.getLsbD 22 || w.getLsbD 21) = true := by
  have hbits : ∀ v : BitVec 4,
      v ≠ 0b0010#4 ↔ (v.getLsbD 3 || v.getLsbD 2 || !v.getLsbD 1 || v.getLsbD 0) = true := by decide
  rw [hbits]
  simp only [getLsbD_extractLsb', Nat.reduceLT, Nat.reduceAdd, decide_true, Bool.true_and]

/-! ### Each format's word: where it stands in the tree, and its fields (R96 to R112) -/

section
variable {p : Proc} {w : Word} {c : Cond} {sf pre u b wb l : Bool} {rn rd rs rm : Reg} {sh : BitVec 5} {ty : ShiftType}

theorem decodeArm_encDpImm {op rot : BitVec 4} {imm8 : BitVec 8} (h : op.extractLsb' 2 2 = 0b10#2 → sf = true)
    (hw : encDpImm op c sf rn rd rot imm8 = .arm w) : decodeArm p w = .ok (decodeDpImm op c sf rn rd rot imm8) := by
  rw [decodeArm_immediateSpace (encDpImm_top hw), decodeImmediateSpace, if_neg] <;> cases hw <;>
    simp [fieldAbove, fieldWithin, getLsbD_append, -Nat.reduceAdd, -getLsbD_eq_getElem]
  exact h

theorem decodeArm_encDpRsi {op : BitVec 4} (h : op.extractLsb' 2 2 = 0b10#2 → sf = true)
    (hw : encDpRsi op c sf rn rd sh ty rm = .arm w) : decodeArm p w = .ok (decodeDpRsi op c sf rn rd sh ty rm) := by
  rw [decodeArm_dpRsi (encDpRsi_top hw)] <;> cases hw <;>
    simp [fieldAbove, fieldWithin, getLsbD_append, -Nat.reduceAdd, -getLsbD_eq_getElem]
  exact h

theorem decodeArm_encDpRsr {op : BitVec 4} (h : op.extractLsb' 2 2 = 0b10#2 → sf = true)
    (hw : encDpRsr op c sf rn rd rs ty rm = .arm w) : decodeArm p w = .ok (decodeDpRsr op c sf rn rd rs ty rm) := by
  rw [decodeArm_dpRsr (encDpRsr_top hw)] <;> cases hw <;>
    simp [fieldAbove, fieldWithin, getLsbD_append, -Nat.reduceAdd, -getLsbD_eq_getElem]
  exact h

section
variable {op : BitVec 2} {f3 f2 f1 low f0 : BitVec 4}

theorem decodeArm_encMisc (h : (low.getLsbD 3 && low.getLsbD 0) = false)
    (hw : encMisc c op f3 f2 f1 low f0 = .arm w) : decodeArm p w = decodeMiscSpace p c w := by
  refine decodeArm_miscSpace (encMisc_top hw) ?_ ?_ ?_ <;> cases hw
  · simp [fieldAbove, fieldWithin, -Nat.reduceAdd]
  · simpa [fieldAbove, fieldWithin, getLsbD_append, -Nat.reduceAdd, -getLsbD_eq_getElem] using h
  · simp [fieldAbove, fieldWithin, getLsbD_append, -Nat.reduceAdd, -getLsbD_eq_getElem]

theorem encMisc_fields (hw : encMisc c op f3 f2 f1 low f0 = .arm w) :
    w.extractLsb' 21 2 = op ∧ w.extractLsb' 16 4 = f3 ∧ w.extractLsb' 12 4 = f2 ∧ w.extractLsb' 8 4 = f1 ∧
      w.extractLsb' 4 4 = low ∧ w.extractLsb' 0 4 = f0 := by
  cases hw
  simp [fieldAbove, fieldWithin, -Nat.reduceAdd]

end

theorem decodeArm_signedMultiply {op : BitVec 2} {f3 f2 f1 f0 : BitVec 4} {y x : Bool}
    (hw : encMisc c op f3 f2 f1 (yxBits y x) f0 = .arm w) :
    decodeArm p w = onlyOnA p (decodeSignedMultiply c w) ∧ w.getLsbD 6 = y ∧ w.getLsbD 5 = x := by
  obtain ⟨-, -, -, -, hlow, -⟩ := encMisc_fields hw
  have hbit : ∀ k < 4, w.getLsbD (4 + k) = (yxBits y x).getLsbD k := fun k hk => by
    rw [← hlow, getLsbD_extractLsb', decide_eq_true hk, Bool.true_and]
  have h7 := hbit 3 (by decide)
  have h6 := hbit 2 (by decide)
  have h5 := hbit 1 (by decide)
  have h4 := hbit 0 (by decide)
  rw [decodeArm_encMisc (by cases y <;> cases x <;> rfl) hw, decodeMiscSpace]
  cases y <;> cases x
  all_goals
    simp only [hlow, h7, h6, h5, h4]
    exact ⟨rfl, rfl, rfl⟩

theorem decodeArm_encMul {hi8 : BitVec 8} {f3 f2 f1 : BitVec 4} (h : hi8.extractLsb' 5 3 = 0b000#3)
    (hw : encMul c hi8 f3 f2 f1 rm = .arm w) : decodeArm p w = decodeMultiplySpace c w := by
  refine decodeArm_multiplySpace (encMul_top hw) ?_ ?_ <;> cases hw
  · simpa [fieldAbove, fieldWithin, -Nat.reduceAdd] using h
  · simp [fieldAbove, fieldWithin, -Nat.reduceAdd]

theorem encHalf_fields {s : BitVec 2} {off : HalfOffset} (hw : encHalf c pre u wb l s rn rd off = .arm w) :
    w.getLsbD 24 = pre ∧ w.getLsbD 23 = u ∧ w.getLsbD 21 = wb ∧ w.getLsbD 20 = l ∧
      w.extractLsb' 16 4 = rn ∧ w.extractLsb' 12 4 = rd ∧ w.extractLsb' 5 2 = s ∧
      (if w.getLsbD 22 then HalfOffset.imm (w.extractLsb' 8 4 ++ w.extractLsb' 0 4)
        else .reg (w.extractLsb' 0 4)) = off := by
  cases off <;> cases hw <;>
    simp [fieldAbove, fieldWithin, getLsbD_append, -Nat.reduceAdd, -getLsbD_eq_getElem]

theorem decodeArm_encHalf {s : BitVec 2} {off : HalfOffset} (h : s ≠ 0b00#2)
    (hw : encHalf c pre u wb l s rn rd off = .arm w) : decodeArm p w = decodeHalfwordSpace p c w := by
  obtain ⟨-, -, -, -, -, -, hs, -⟩ := encHalf_fields hw
  have hmid : (w.extractLsb' 4 4).extractLsb' 1 2 = w.extractLsb' 5 2 := by
    ext k hk
    simp [show 1 + k < 4 by omega, ← Nat.add_assoc]
  have hne : w.extractLsb' 4 4 ≠ 0b1001#4 := fun e => h (by rw [← hs, ← hmid, e]; rfl)
  refine decodeArm_halfwordSpace (encHalf_top hw) ?_ hne ?_ <;> cases off <;> cases hw <;>
    simp [fieldAbove, fieldWithin, getLsbD_append, -Nat.reduceAdd, -getLsbD_eq_getElem]

theorem decodeArm_encTransferImm {off : BitVec 12} (hw : encTransferImm c pre u b wb l rn rd off = .arm w) :
    decodeArm p w = .ok (decodeTransferImm c w) := by
  refine decodeArm_transferImm (encTransferImm_top hw) ?_
  cases hw
  simp [fieldAbove, fieldWithin, -Nat.reduceAdd]

theorem encTransferImm_fields {off : BitVec 12} (hw : encTransferImm c pre u b wb l rn rd off = .arm w) :
    w.getLsbD 24 = pre ∧ w.getLsbD 23 = u ∧ w.getLsbD 22 = b ∧ w.getLsbD 21 = wb ∧ w.getLsbD 20 = l ∧
      w.extractLsb' 16 4 = rn ∧ w.extractLsb' 12 4 = rd ∧ w.extractLsb' 0 12 = off := by
  cases hw
  simp [fieldAbove, fieldWithin, getLsbD_append, -Nat.reduceAdd, -getLsbD_eq_getElem]

theorem decodeArm_encTransferReg (hw : encTransferReg c pre u b wb l rn rd sh ty rm = .arm w) :
    decodeArm p w = .ok (decodeTransferReg c w) := by
  refine decodeArm_transferReg (encTransferReg_top hw) ?_ ?_ <;> cases hw <;>
    simp [fieldAbove, fieldWithin, getLsbD_append, -Nat.reduceAdd, -getLsbD_eq_getElem]

theorem encTransferReg_fields (hw : encTransferReg c pre u b wb l rn rd sh ty rm = .arm w) :
    w.getLsbD 24 = pre ∧ w.getLsbD 23 = u ∧ w.getLsbD 22 = b ∧ w.getLsbD 21 = wb ∧ w.getLsbD 20 = l ∧
      w.extractLsb' 16 4 = rn ∧ w.extractLsb' 12 4 = rd ∧ w.extractLsb' 7 5 = sh ∧ w.extractLsb' 5 2 = ty.bits ∧
        w.extractLsb' 0 4 = rm := by
  cases hw
  simp [fieldAbove, fieldWithin, getLsbD_append, -Nat.reduceAdd, -getLsbD_eq_getElem]

theorem decodeArm_encBlock {list : BitVec 16} (hw : encBlock c pre u b wb l rn list = .arm w) :
    decodeArm p w = .ok (decodeBlock c w) := by
  refine decodeArm_block (encBlock_top hw) ?_
  cases hw
  simp [fieldAbove, fieldWithin, -Nat.reduceAdd]

theorem encBlock_fields {list : BitVec 16} (hw : encBlock c pre u b wb l rn list = .arm w) :
    w.getLsbD 24 = pre ∧ w.getLsbD 23 = u ∧ w.getLsbD 22 = b ∧ w.getLsbD 21 = wb ∧ w.getLsbD 20 = l ∧
      w.extractLsb' 16 4 = rn ∧ w.extractLsb' 0 16 = list := by
  cases hw
  simp [fieldAbove, fieldWithin, getLsbD_append, -Nat.reduceAdd, -getLsbD_eq_getElem]

end

/-! ### Decoding what is encoded -/

theorem decodeArm_encode {p : Proc} {i : Instr} {w : Word} (hw : encode i = .arm w) (hwf : i.wf = true)
    (hA : i.onlyA = true → p = .A) : decodeArm p w = .ok i := by
  cases i with
  | andImm | eorImm | subImm | rsbImm | addImm | adcImm | sbcImm | rscImm | tstImm | teqImm | cmpImm | cmnImm
  | orrImm | movImm | bicImm | mvnImm => exact decodeArm_encDpImm (by simp) hw
  | andRsi | eorRsi | subRsi | rsbRsi | addRsi | adcRsi | sbcRsi | rscRsi | tstRsi | teqRsi | cmpRsi | cmnRsi
  | orrRsi | movRsi | bicRsi | mvnRsi => exact decodeArm_encDpRsi (by simp) hw
  | andRsr | eorRsr | subRsr | rsbRsr | addRsr | adcRsr | sbcRsr | rscRsr | tstRsr | teqRsr | cmpRsr | cmnRsr
  | orrRsr | movRsr | bicRsr | mvnRsr => exact decodeArm_encDpRsr (by simp) hw
  | mrs c r rd =>
    obtain ⟨hop, hrn, hrd, -, hlow, hrm⟩ := encMisc_fields hw
    rw [decodeArm_encMisc rfl hw]
    cases r <;> simp [decodeMiscSpace, *]
  | msrRegCpsr | msrRegSpsr | bx =>
    obtain ⟨hop, hrn, hrd, -, hlow, hrm⟩ := encMisc_fields hw
    rw [decodeArm_encMisc rfl hw]
    simp [decodeMiscSpace, *]
  | blxReg | clz | qadd | qsub | qdadd | qdsub =>
    cases hA rfl
    obtain ⟨hop, hrn, hrd, -, hlow, hrm⟩ := encMisc_fields hw
    rw [decodeArm_encMisc rfl hw]
    simp [decodeMiscSpace, onlyOnA, *]
  | msrImm c =>
    cases hw
    rw [decodeArm_immediateSpace (c := c)] <;>
      simp [decodeImmediateSpace, fieldAbove, fieldWithin, getLsbD_append, -Nat.reduceAdd, -getLsbD_eq_getElem]
  | bkpt c =>
    cases hA rfl
    cases hw
    rw [decodeArm_miscSpace (c := c)] <;>
      simp [decodeMiscSpace, onlyOnA, fieldAbove, fieldWithin, getLsbD_append, -Nat.reduceAdd, -getLsbD_eq_getElem]
  | smlaXy | smlawY | smulwY | smlalXy | smulXy =>
    cases hA rfl
    obtain ⟨hop, hrn, hrd, hrs, -, hrm⟩ := encMisc_fields hw
    obtain ⟨hdec, hy, hx⟩ := decodeArm_signedMultiply (p := .A) hw
    simp [onlyOnA, decodeSignedMultiply, *, -getLsbD_eq_getElem]
  | mul | mla | umull | umlal | smull | smlal =>
    rw [decodeArm_encMul (by simp [fieldAbove, -Nat.reduceAdd]) hw]
    cases hw
    simp [decodeMultiplySpace, fieldAbove, fieldWithin, getLsbD_append, -Nat.reduceAdd, -getLsbD_eq_getElem]
  | swp | swpb =>
    rw [decodeArm_encMul rfl hw]
    cases hw
    simp [decodeMultiplySpace, fieldAbove, fieldWithin, getLsbD_append, -Nat.reduceAdd, -getLsbD_eq_getElem]
  | ldrh | strh | ldrsb | ldrsh =>
    have hidx := tForm_eq_false_iff.2 hwf
    obtain ⟨hp, hu, hwb, hl, hrn, hrd, hs, hoff⟩ := encHalf_fields hw
    rw [decodeArm_encHalf (by decide) hw]
    simp only [decodeHalfwordSpace, *]
    rfl
  | ldrd | strd =>
    cases hA rfl
    have hidx := tForm_eq_false_iff.2 hwf
    obtain ⟨hp, hu, hwb, hl, hrn, hrd, hs, hoff⟩ := encHalf_fields hw
    rw [decodeArm_encHalf (by decide) hw]
    simp only [decodeHalfwordSpace, *]
    rfl
  | ldrImm | strImm | ldrbImm | strbImm =>
    have hidx := tForm_eq_false_iff.2 hwf
    obtain ⟨hp, hu, hb, hwb, hl, hrn, hrd, hoff⟩ := encTransferImm_fields hw
    rw [decodeArm_encTransferImm hw]
    simp only [decodeTransferImm, *]
  | ldrtImm | strtImm | ldrbtImm | strbtImm =>
    obtain ⟨hp, hu, hb, hwb, hl, hrn, hrd, hoff⟩ := encTransferImm_fields hw
    rw [decodeArm_encTransferImm hw]
    simp only [decodeTransferImm, *]
    rfl
  | ldrReg | strReg | ldrbReg | strbReg =>
    have hidx := tForm_eq_false_iff.2 hwf
    obtain ⟨hp, hu, hb, hwb, hl, hrn, hrd, hsh, hty, hrm⟩ := encTransferReg_fields hw
    rw [decodeArm_encTransferReg hw]
    simp only [decodeTransferReg, ShiftType.ofBits_bits, *]
  | ldrtReg | strtReg | ldrbtReg | strbtReg =>
    obtain ⟨hp, hu, hb, hwb, hl, hrn, hrd, hsh, hty, hrm⟩ := encTransferReg_fields hw
    rw [decodeArm_encTransferReg hw]
    simp only [decodeTransferReg, ShiftType.ofBits_bits, *]
    rfl
  | ldm | ldmS | stm | stmS =>
    obtain ⟨hp, hu, hb, hwb, hl, hrn, hlist⟩ := encBlock_fields hw
    rw [decodeArm_encBlock hw]
    simp only [decodeBlock, *]
  | b c | bl c =>
    cases hw
    rw [decodeArm_branch (c := c)] <;>
      simp [fieldAbove, fieldWithin, getLsbD_append, -Nat.reduceAdd, -getLsbD_eq_getElem]
  | pld i =>
    cases hA rfl
    cases hw
    cases i <;>
      simp [decodeArm, decodeUnconditional, onlyOnA, Cond.ofBits, fieldAbove, fieldWithin, getLsbD_append, -Nat.reduceAdd,
      -getLsbD_eq_getElem]
  | blxImm =>
    cases hA rfl
    cases hw
    simp [decodeArm, decodeUnconditional, onlyOnA, Cond.ofBits, fieldAbove, fieldWithin, getLsbD_append, -Nat.reduceAdd,
      -getLsbD_eq_getElem]
  | swi c =>
    cases hw
    rw [decodeArm_systemSpace (c := c)] <;>
      simp [decodeSystemSpace, fieldAbove, fieldWithin, getLsbD_append, -Nat.reduceAdd, -getLsbD_eq_getElem]
  | cdp c | mcr c | mrc c =>
    cases hw
    rw [decodeArm_systemSpace (c := c)] <;>
      simp [decodeSystemSpace, fieldAbove, fieldWithin, getLsbD_append, -Nat.reduceAdd, -getLsbD_eq_getElem]
  | mcrrMrrc c =>
    cases hw
    rw [decodeArm_coprocessorTransfer (c := c)] <;>
      simp [decodeCoprocessorTransfer, fieldAbove, fieldWithin, getLsbD_append, -Nat.reduceAdd, -getLsbD_eq_getElem]
  | ldcStc c =>
    cases hw
    rw [decodeArm_coprocessorTransfer (c := c), decodeCoprocessorTransfer, if_neg (ne_mcrrPattern_iff.2 ?_)] <;>
      simp [fieldAbove, fieldWithin, getLsbD_append, -Nat.reduceAdd, -getLsbD_eq_getElem]
    simpa [Instr.wf] using hwf
  | _ => cases hw

theorem decodeThumb_encode {p : Proc} {i : Instr} {h : Half} (hh : encode i = .thumb h) (hwf : i.wf = true)
    (hA : i.onlyA = true → p = .A) : decodeThumb p h = .ok i := by
  cases i with
  | tLslImm | tLsrImm | tAsrImm | tAddReg | tSubReg | tAddImm3 | tSubImm3 | tMovImm | tCmpImm | tAddImm8 | tSubImm8
  | tStrImm | tLdrImm | tStrbImm | tLdrbImm | tStrhImm | tLdrhImm | tStrSp | tLdrSp | tAddPc | tAddSp
  | tStmia | tLdmia | tB | tBlPrefix | tBlSuffix =>
    cases hh
    simp [decodeThumb, fieldAbove, fieldWithin, -Nat.reduceAdd]
  | tAnd | tEor | tLslReg | tLsrReg | tAsrReg | tAdc | tSbc | tRor | tTst | tNeg | tCmpReg | tCmn | tOrr | tMul | tBic
  | tMvn =>
    cases hh
    simp [decodeThumb, decodeThumb010, decodeThumbAlu, fieldAbove, fieldWithin, -Nat.reduceAdd]
  | tAddHi | tCmpHi | tMovHi | tBx =>
    cases hh
    simp [decodeThumb, decodeThumb010, decodeThumbHigh, fieldAbove, fieldWithin, getLsbD_append, -Nat.reduceAdd,
      -getLsbD_eq_getElem]
  | tBlxReg =>
    cases hA rfl
    cases hh
    simp [decodeThumb, decodeThumb010, decodeThumbHigh, onlyOnA, fieldAbove, fieldWithin, getLsbD_append, -Nat.reduceAdd,
      -getLsbD_eq_getElem]
  | tLdrPc rd =>
    have hpc : ∀ rd : LowReg,
        (0b01001#5 ++ rd).extractLsb' 2 3 ≠ 0b000#3 ∧ (0b01001#5 ++ rd).extractLsb' 2 3 ≠ 0b001#3 := by decide
    cases hh
    simp [decodeThumb, decodeThumb010, hpc, fieldAbove, fieldWithin, -Nat.reduceAdd]
  | tStrReg | tStrbReg | tLdrReg | tLdrbReg | tStrhReg | tLdrhReg | tLdsbReg | tLdshReg =>
    cases hh
    simp [decodeThumb, decodeThumb010, decodeThumbTransferReg, fieldAbove, fieldWithin, -Nat.reduceAdd]
  | tPush r =>
    cases hh
    cases r <;>
      simp [decodeThumb, decodeThumbMisc, fieldAbove, fieldWithin, getLsbD_append, -Nat.reduceAdd, -getLsbD_eq_getElem]
  | tAddSpImm | tPop =>
    cases hh
    simp [decodeThumb, decodeThumbMisc, fieldAbove, fieldWithin, getLsbD_append, -Nat.reduceAdd, -getLsbD_eq_getElem]
  | tBkpt =>
    cases hA rfl
    cases hh
    simp [decodeThumb, decodeThumbMisc, onlyOnA, fieldAbove, fieldWithin, -Nat.reduceAdd]
  | tBcond c _ =>
    cases hh
    cases c with
    | al => cases hwf
    | _ => simp [decodeThumb, decodeThumbCond, Cond.bits, Cond.ofBits, fieldAbove, fieldWithin, -Nat.reduceAdd]
  | tSwi =>
    cases hh
    simp [decodeThumb, decodeThumbCond, Cond.ofBits, fieldAbove, fieldWithin, -Nat.reduceAdd]
  | tBlxSuffix =>
    cases hA rfl
    cases hh
    simpa [decodeThumb, onlyOnA, Instr.wf, fieldAbove, fieldWithin, getLsbD_append, -Nat.reduceAdd,
      -getLsbD_eq_getElem] using hwf
  | ldrh _ _ _ _ _ _ off | strh _ _ _ _ _ _ off | ldrsb _ _ _ _ _ _ off | ldrsh _ _ _ _ _ _ off
  | ldrd _ _ _ _ _ _ off | strd _ _ _ _ _ _ off => cases off <;> cases hh
  | _ => cases hh

/-! ### Words and bytes (R62, R63, R90) -/

theorem decode_four (p : Proc) (b0 b1 b2 b3 : Byte) (rest : List Byte) :
    decode p false (b0 :: b1 :: b2 :: b3 :: rest) = (decodeArm p (b3 ++ b2 ++ b1 ++ b0)).map (·, rest) := by
  rw [decode]
  cases decodeArm p (b3 ++ b2 ++ b1 ++ b0) <;> rfl

theorem decode_two (p : Proc) (b0 b1 : Byte) (rest : List Byte) :
    decode p true (b0 :: b1 :: rest) = (decodeThumb p (b1 ++ b0)).map (·, rest) := by
  rw [decode]
  cases decodeThumb p (b1 ++ b0) <;> rfl

theorem decode_armBytes (p : Proc) (w : Word) (rest : List Byte) :
    decode p false ((Code.arm w).bytes ++ rest) = (decodeArm p w).map (·, rest) := by
  have hw : w.extractLsb' 24 8 ++ w.extractLsb' 16 8 ++ w.extractLsb' 8 8 ++ w.extractLsb' 0 8 = w := by
    rw [extractLsb'_append_extractLsb'_eq_extractLsb' (start₂ := 24) (start₁ := 16) (len₁ := 8) rfl,
      extractLsb'_append_extractLsb'_eq_extractLsb' (start₂ := 16) (start₁ := 8) (len₁ := 8) rfl,
      extractLsb'_append_extractLsb'_eq_extractLsb' (start₂ := 8) (start₁ := 0) (len₁ := 8) rfl]
    exact extractLsb'_eq_self
  simp only [Code.bytes, List.cons_append, List.nil_append, decode_four, hw]

theorem decode_thumbBytes (p : Proc) (h : Half) (rest : List Byte) :
    decode p true ((Code.thumb h).bytes ++ rest) = (decodeThumb p h).map (·, rest) := by
  have hh : h.extractLsb' 8 8 ++ h.extractLsb' 0 8 = h :=
    (extractLsb'_append_extractLsb'_eq_extractLsb' rfl).trans extractLsb'_eq_self
  simp only [Code.bytes, List.cons_append, List.nil_append, decode_two, hh]

/-- Bytes are too few for both processors, or both decode the word at their head. -/
theorem decode_eq (t : Bool) (bytes : List Byte) : (∀ p, decode p t bytes = .error .truncated) ∨
    ∃ code rest w, bytes = code ++ rest ∧ code.length = (if t then 2 else 4) ∧
      ∀ p, decode p t bytes = (decodeFetched p t w).map (·, rest) := by
  cases t with
  | false =>
    match bytes with
    | [] | [_] | [_, _] | [_, _, _] => exact .inl fun _ => rfl
    | b0 :: b1 :: b2 :: b3 :: rest =>
      exact .inr ⟨[b0, b1, b2, b3], rest, b3 ++ b2 ++ b1 ++ b0, rfl, rfl, fun p => decode_four p b0 b1 b2 b3 rest⟩
  | true =>
    match bytes with
    | [] | [_] => exact .inl fun _ => rfl
    | b0 :: b1 :: rest =>
      refine .inr ⟨[b0, b1], rest, (b1 ++ b0).setWidth 32, rfl, rfl, fun p => ?_⟩
      rw [decode_two, decodeFetched, if_pos rfl, setWidth_setWidth_of_le _ (by decide), setWidth_eq]

/-- Settles O1: in each set, the tree takes the word of an instruction to the leaf it was written for. -/
theorem decodeOfEncode : Obligations.DecodeOfEncode := by
  intro p i rest hwf hA
  unfold isThumb
  cases he : encode i with
  | arm w => rw [decode_armBytes, decodeArm_encode he hwf hA]; rfl
  | thumb h => rw [decode_thumbBytes, decodeThumb_encode he hwf hA]; rfl

/-! ### The two processors' decoders side by side (R93, R95, R125, R126) -/

/-- A well-formed instruction of a class that only A has, or of one that both processors have. -/
structure Instr.OfClass (onlyA : Bool) (i : Instr) : Prop where
  wf : i.wf = true
  onlyA_eq : i.onlyA = onlyA

/-- What A's and B's decoders answer for one word: the same well-formed instruction, a well-formed one that only A has,
or no instruction on either. -/
inductive OnBoth : Except DecodeError Instr → Except DecodeError Instr → Prop
  | shared {i : Instr} (h : i.OfClass false) : OnBoth (.ok i) (.ok i)
  | onlyA {i : Instr} (h : i.OfClass true) : OnBoth (.ok i) (.error .onlyOnA)
  | undefined (e e' : DecodeError) : OnBoth (.error e) (.error e')

namespace OnBoth

theorem ite {c : Prop} [Decidable c] {a b a' b' : Except DecodeError Instr} (h : c → OnBoth a b)
    (h' : ¬c → OnBoth a' b') : OnBoth (if c then a else a') (if c then b else b') := by
  split
  · exact h ‹_›
  · exact h' ‹_›

theorem onlyOnA {i : Instr} (h : i.OfClass true) : OnBoth (onlyOnA .A i) (onlyOnA .B i) := .onlyA h

/-- What p's decoder answers is well formed and one of p's instructions. -/
theorem of_ok {f : Proc → Except DecodeError Instr} (h : OnBoth (f .A) (f .B)) {p : Proc} {i : Instr}
    (hi : f p = .ok i) : i.wf = true ∧ (i.onlyA = true → p = .A) := by
  cases p with
  | A =>
    rw [hi] at h
    generalize f .B = r at h
    cases h with
    | shared h | onlyA h => exact ⟨h.wf, fun _ => rfl⟩
  | B =>
    rw [hi] at h
    generalize f .A = r at h
    cases h with
    | shared h => exact ⟨h.wf, fun hA => Bool.noConfusion (hA.symm.trans h.onlyA_eq)⟩

end OnBoth

theorem ofClass_decodeDpImm (op : BitVec 4) (c : Cond) (sf : Bool) (rn rd : Reg) (rot : BitVec 4) (imm8 : BitVec 8) :
    (decodeDpImm op c sf rn rd rot imm8).OfClass false := by
  unfold decodeDpImm; split <;> exact ⟨rfl, rfl⟩

theorem ofClass_decodeDpRsi (op : BitVec 4) (c : Cond) (sf : Bool) (rn rd : Reg) (sh : BitVec 5) (ty : ShiftType)
    (rm : Reg) : (decodeDpRsi op c sf rn rd sh ty rm).OfClass false := by
  unfold decodeDpRsi; split <;> exact ⟨rfl, rfl⟩

theorem ofClass_decodeDpRsr (op : BitVec 4) (c : Cond) (sf : Bool) (rn rd rs : Reg) (ty : ShiftType) (rm : Reg) :
    (decodeDpRsr op c sf rn rd rs ty rm).OfClass false := by
  unfold decodeDpRsr; split <;> exact ⟨rfl, rfl⟩

theorem ofClass_decodeTransferImm (c : Cond) (w : Word) : (decodeTransferImm c w).OfClass false := by
  unfold decodeTransferImm
  dsimp only
  split
  case h_1 | h_2 | h_3 | h_4 => exact ⟨rfl, rfl⟩
  all_goals exact ⟨tForm_eq_false_iff.1 ‹_›, rfl⟩

theorem ofClass_decodeTransferReg (c : Cond) (w : Word) : (decodeTransferReg c w).OfClass false := by
  unfold decodeTransferReg
  dsimp only
  split
  case h_1 | h_2 | h_3 | h_4 => exact ⟨rfl, rfl⟩
  all_goals exact ⟨tForm_eq_false_iff.1 ‹_›, rfl⟩

theorem ofClass_decodeBlock (c : Cond) (w : Word) : (decodeBlock c w).OfClass false := by
  unfold decodeBlock
  dsimp only
  split <;> exact ⟨rfl, rfl⟩

theorem ofClass_decodeSystemSpace (c : Cond) (w : Word) : (decodeSystemSpace c w).OfClass false := by
  unfold decodeSystemSpace
  dsimp only
  repeat' split
  all_goals exact ⟨rfl, rfl⟩

theorem ofClass_decodeCoprocessorTransfer (c : Cond) (w : Word) : (decodeCoprocessorTransfer c w).OfClass false := by
  unfold decodeCoprocessorTransfer
  split
  · exact ⟨rfl, rfl⟩
  · next h => exact ⟨ne_mcrrPattern_iff.1 h, rfl⟩

theorem ofClass_decodeSignedMultiply (c : Cond) (w : Word) : (decodeSignedMultiply c w).OfClass true := by
  unfold decodeSignedMultiply
  dsimp only
  repeat' split
  all_goals exact ⟨rfl, rfl⟩

theorem onBoth_decodeMultiplySpace (c : Cond) (w : Word) :
    OnBoth (decodeMultiplySpace c w) (decodeMultiplySpace c w) := by
  refine .ite (fun _ => ?_) fun _ => .ite (fun _ => ?_) fun _ => .ite (fun _ => ?_) fun _ => .undefined _ _
  all_goals split <;> exact .shared ⟨rfl, rfl⟩

theorem onBoth_decodeHalfwordSpace (c : Cond) (w : Word) :
    OnBoth (decodeHalfwordSpace .A c w) (decodeHalfwordSpace .B c w) := by
  refine .ite (fun _ => .undefined _ _) fun hidx => ?_
  have hwf := tForm_eq_false_iff.1 (Bool.eq_false_iff.2 hidx)
  refine .ite (fun _ => ?_) fun _ => ?_
  · exact .ite (fun _ => .shared ⟨hwf, rfl⟩) fun _ => .ite (fun _ => .shared ⟨hwf, rfl⟩) fun _ => .shared ⟨hwf, rfl⟩
  · exact .ite (fun _ => .shared ⟨hwf, rfl⟩) fun _ => .ite (fun _ => .onlyOnA ⟨hwf, rfl⟩) fun _ => .onlyOnA ⟨hwf, rfl⟩

theorem onBoth_decodeMiscSpace (c : Cond) (w : Word) : OnBoth (decodeMiscSpace .A c w) (decodeMiscSpace .B c w) := by
  have hno : OnBoth (.error .miscSpace) (.error .miscSpace) := .undefined _ _
  refine .ite (fun _ => ?_) fun _ => .ite (fun _ => ?_) fun _ => .ite (fun _ => ?_) fun _ => .ite (fun _ => ?_) fun _ =>
    .ite (fun _ => ?_) fun _ => .ite (fun _ => .onlyOnA (ofClass_decodeSignedMultiply c w)) fun _ => hno
  · split <;> exact .shared ⟨rfl, rfl⟩
  · exact .ite (fun _ => .shared ⟨rfl, rfl⟩) fun _ => .ite (fun _ => .onlyOnA ⟨rfl, rfl⟩) fun _ => hno
  · exact .ite (fun _ => .onlyOnA ⟨rfl, rfl⟩) fun _ => hno
  · split <;> exact .onlyOnA ⟨rfl, rfl⟩
  · exact .ite (fun _ => .onlyOnA ⟨rfl, rfl⟩) fun _ => hno

theorem onBoth_decodeRegisterSpace (c : Cond) (w : Word) :
    OnBoth (decodeRegisterSpace .A c w) (decodeRegisterSpace .B c w) :=
  .ite (fun _ => onBoth_decodeMultiplySpace c w) fun _ => .ite (fun _ => onBoth_decodeHalfwordSpace c w) fun _ =>
    .ite (fun _ => onBoth_decodeMiscSpace c w) fun _ => .ite (fun _ => .shared (ofClass_decodeDpRsi ..)) fun _ =>
      .shared (ofClass_decodeDpRsr ..)

theorem onBoth_decodeUnconditional (w : Word) : OnBoth (decodeUnconditional .A w) (decodeUnconditional .B w) :=
  .ite (fun _ => .onlyOnA ⟨rfl, rfl⟩) fun _ => .ite (fun _ => .onlyOnA ⟨rfl, rfl⟩) fun _ => .undefined _ _

theorem onBoth_decodeArm (w : Word) : OnBoth (decodeArm .A w) (decodeArm .B w) := by
  unfold decodeArm
  split
  · exact onBoth_decodeUnconditional w
  · next c _ =>
    split
    · exact onBoth_decodeRegisterSpace c w
    · exact .ite (fun _ => .ite (fun _ => .shared ⟨rfl, rfl⟩) fun _ => .undefined _ _) fun _ =>
        .shared (ofClass_decodeDpImm ..)
    · exact .shared (ofClass_decodeTransferImm c w)
    · exact .ite (fun _ => .undefined _ _) fun _ => .shared (ofClass_decodeTransferReg c w)
    · exact .shared (ofClass_decodeBlock c w)
    · exact .ite (fun _ => .shared ⟨rfl, rfl⟩) fun _ => .shared ⟨rfl, rfl⟩
    · exact .shared (ofClass_decodeCoprocessorTransfer c w)
    · exact .shared (ofClass_decodeSystemSpace c w)

theorem onBoth_decodeThumbHigh (h : Half) : OnBoth (decodeThumbHigh .A h) (decodeThumbHigh .B h) := by
  unfold decodeThumbHigh
  dsimp only
  split
  case h_4 => exact .ite (fun _ => .onlyOnA ⟨rfl, rfl⟩) fun _ => .shared ⟨rfl, rfl⟩
  all_goals exact .shared ⟨rfl, rfl⟩

theorem onBoth_decodeThumb010 (h : Half) : OnBoth (decodeThumb010 .A h) (decodeThumb010 .B h) := by
  refine .ite (fun _ => .shared ?_) fun _ => .ite (fun _ => onBoth_decodeThumbHigh h) fun _ =>
    .ite (fun _ => .shared ⟨rfl, rfl⟩) fun _ => .shared ?_
  · unfold decodeThumbAlu; split <;> exact ⟨rfl, rfl⟩
  · unfold decodeThumbTransferReg; dsimp only; split <;> exact ⟨rfl, rfl⟩

theorem onBoth_decodeThumbMisc (h : Half) : OnBoth (decodeThumbMisc .A h) (decodeThumbMisc .B h) :=
  .ite (fun _ => .shared ⟨rfl, rfl⟩) fun _ =>
    .ite (fun _ => .ite (fun _ => .shared ⟨rfl, rfl⟩) fun _ => .shared ⟨rfl, rfl⟩) fun _ =>
      .ite (fun _ => .onlyOnA ⟨rfl, rfl⟩) fun _ => .undefined _ _

theorem onBoth_decodeThumbCond (h : Half) : OnBoth (decodeThumbCond h) (decodeThumbCond h) := by
  unfold decodeThumbCond
  split
  · exact .shared ⟨rfl, rfl⟩
  · exact .undefined _ _
  · next hne _ => exact .shared ⟨decide_eq_true hne, rfl⟩

theorem onBoth_decodeThumb (h : Half) : OnBoth (decodeThumb .A h) (decodeThumb .B h) := by
  refine .ite (fun _ => .ite (fun _ => .undefined _ _) fun h0 => .onlyOnA ⟨?_, rfl⟩) fun _ => ?_
  · simpa [Instr.wf] using h0
  · split
    case h_3 => exact onBoth_decodeThumb010 h
    case h_6 =>
      split
      · exact .shared ⟨rfl, rfl⟩
      · exact .shared ⟨rfl, rfl⟩
      · exact onBoth_decodeThumbMisc h
    case h_7 =>
      split
      · exact .shared ⟨rfl, rfl⟩
      · exact .shared ⟨rfl, rfl⟩
      · exact onBoth_decodeThumbCond h
    all_goals
      repeat' split
      all_goals exact .shared ⟨rfl, rfl⟩

theorem onBoth_decodeFetched (t : Bool) (w : Word) : OnBoth (decodeFetched .A t w) (decodeFetched .B t w) :=
  .ite (fun _ => onBoth_decodeThumb _) fun _ => onBoth_decodeArm w

/-- Settles O2: what both decoders answer is well formed and its class known, and its set is the selected one. -/
theorem decodedIsWellFormed : Obligations.DecodedIsWellFormed := by
  intro p t bytes rest i hdec
  obtain herr | ⟨code, rest', w, hbytes, hlen, heq⟩ := decode_eq t bytes
  · rw [herr] at hdec
    cases hdec
  · rw [heq] at hdec
    cases hi : decodeFetched p t w with
    | error e =>
      rw [hi] at hdec
      cases hdec
    | ok j =>
      rw [hi] at hdec
      cases hdec
      obtain ⟨hwf, hA⟩ := OnBoth.of_ok (f := fun p => decodeFetched p t w) (onBoth_decodeFetched t w) hi
      exact ⟨hwf, isThumb_of_decodeFetched hi, hA, code, hbytes, hlen⟩

/-- Settles O3: each clause is one of the ways in which the two decoders answer. -/
theorem bLacksOnlyTheAClasses : Obligations.BLacksOnlyTheAClasses := by
  intro t bytes
  obtain herr | ⟨code, rest', w, -, -, heq⟩ := decode_eq t bytes
  · rw [herr, herr]
    exact ⟨fun _ _ h => (nomatch h), fun _ _ h => (nomatch h), fun _ _ => ⟨_, rfl⟩⟩
  · rw [heq, heq]
    have hboth := onBoth_decodeFetched t w
    generalize decodeFetched .A t w = a at hboth
    generalize decodeFetched .B t w = b at hboth
    cases hboth with
    | shared h =>
      refine ⟨fun _ _ hi _ => hi, fun i _ hi hA => ?_, fun _ he => (nomatch he)⟩
      cases hi
      exact Bool.noConfusion (hA.symm.trans h.onlyA_eq)
    | onlyA h =>
      refine ⟨fun i _ hi hA => ?_, fun _ _ _ _ => ⟨_, rfl⟩, fun _ he => (nomatch he)⟩
      cases hi
      exact Bool.noConfusion (hA.symm.trans h.onlyA_eq)
    | undefined e e' => exact ⟨fun _ _ h => (nomatch h), fun _ _ h => (nomatch h), fun _ _ => ⟨e', rfl⟩⟩

/-- Settles O4: each word is decoded. -/
theorem sampleWordsDecode : Obligations.SampleWordsDecode := by
  unfold Obligations.SampleWordsDecode
  decide

end Sys2Proof

namespace Sys2Proof.Machine

/-! ### What this core does not implement (R125, R126, R279, R281, R282, R363) -/

theorem onlyIfA_of_B {s : State} (h : s.cur = .B) (f : State → Result) : onlyIfA s f = fatal s := by
  simp only [onlyIfA, h]

/-- The meaning of every class that only A has begins with the test of the processor; the Thumb BKPT stops on both. -/
theorem exec_onlyA_on_B {i : Instr} {s : State} (hi : i.onlyA = true) (hB : s.cur = .B) : exec i s = fatal s := by
  cases i with
  | blxReg | blxImm | clz | qadd | qsub | qdadd | qdsub | bkpt | smlaXy | smlawY | smulwY | smlalXy | smulXy | ldrd
  | strd | pld | tBlxReg | tBlxSuffix =>
    unfold exec
    exact onlyIfA_of_B hB _
  | tBkpt => rfl
  | _ => cases hi

theorem coprocessorAllowed_on_B (cp : Reg) {s : State} (hB : s.cur = .B) : coprocessorAllowed cp s = false := by
  simp [coprocessorAllowed, hB]

theorem execBkpt_eq_fatal {c : Cond} {s : State} (hc : condPassed c s.cpu.cpsr = true) (imm12 : BitVec 12)
    (imm4 : BitVec 4) : execBkpt c imm12 imm4 s = fatal s := by
  unfold execBkpt onlyIfA
  split
  · exact ifPassed_of_passed hc _
  · rfl

section
variable {c : Cond} {s : State} (hc : condPassed c s.cpu.cpsr = true) (hB : s.cur = .B) (opc1 : BitVec 3)
  (crn rd cp : Reg) (opc2 : BitVec 3) (crm : Reg)
include hc hB

theorem execMcr_on_B : execMcr c opc1 crn rd cp opc2 crm s = fatal s := by
  rw [execMcr, ifPassed_of_passed hc, coprocessorAllowed_on_B cp hB, if_neg fun h => Bool.false_ne_true h.1]

theorem execMrc_on_B : execMrc c opc1 crn rd cp opc2 crm s = fatal s := by
  rw [execMrc, ifPassed_of_passed hc, coprocessorAllowed_on_B cp hB, if_neg Bool.false_ne_true]

end

section
variable {s : State} (hA : s.cur = .A) (i u : Bool) (rn : Reg) (off12 : BitVec 12)
include hA

theorem execPld_fatal (h : s.cfg.pldPolicy = .fatal) : execPld i u rn off12 s = fatal s := by
  rw [execPld, onlyIfA_of_A hA, h]

theorem execPld_nop (h : s.cfg.pldPolicy = .nop) : execPld i u rn off12 s = .next s.advanceArm := by
  rw [execPld, onlyIfA_of_A hA, h]

end

/-- Settles O52: each meaning stops once its condition and its processor are known. -/
theorem unimplementedIsFatal : Obligations.UnimplementedIsFatal := by
  intro s stop
  refine ⟨fun c hc => ⟨?_, ?_, ?_, ?_, ?_⟩, fun _ => rfl, ?_, ?_, fun i => exec_onlyA_on_B⟩
  · exact fun _ _ _ _ _ _ => ifPassed_of_passed hc fatal
  · exact fun _ _ _ _ _ _ => ifPassed_of_passed hc fatal
  · exact fun _ _ _ _ _ _ _ _ _ => ifPassed_of_passed hc fatal
  · exact fun imm12 imm4 => execBkpt_eq_fatal hc imm12 imm4
  · exact fun opc1 crn rd cp opc2 crm hB =>
      ⟨execMcr_on_B hc hB opc1 crn rd cp opc2 crm, execMrc_on_B hc hB opc1 crn rd cp opc2 crm⟩
  · exact fun i u rn off12 hA h => execPld_fatal hA i u rn off12 h
  · exact fun i u rn off12 hA h => execPld_nop hA i u rn off12 h

end Sys2Proof.Machine

namespace Sys2Proof.Machine

/-! ### The shifter as exact shifts (R133 to R137) -/

section
variable (v : Word) (n : Nat) (cin : Bool)

theorem shiftLsl_eq : shiftLsl v n cin =
    ⟨v <<< n, if n = 0 then cin else decide (n ≤ 32) && v.getLsbD (32 - n)⟩ := by
  obtain rfl | hn := eq_or_ne n 0
  · simp [shiftLsl]
  simp only [shiftLsl, if_neg hn]
  obtain h | rfl | h : n ≤ 31 ∨ n = 32 ∨ 32 < n := by omega
  · simp [h, show n ≤ 32 by omega]
  · simp [BitVec.shiftLeft_eq_zero]
  · simp [show ¬n ≤ 31 by omega, h.ne', h.not_ge, BitVec.shiftLeft_eq_zero h.le]

theorem shiftLsr_eq : shiftLsr v n cin = ⟨v >>> n, if n = 0 then cin else v.getLsbD (n - 1)⟩ := by
  obtain rfl | hn := eq_or_ne n 0
  · simp [shiftLsr]
  simp only [shiftLsr, if_neg hn]
  obtain h | rfl | h : n ≤ 31 ∨ n = 32 ∨ 32 < n := by omega
  · simp [h]
  · simp [BitVec.ushiftRight_eq_zero]
  · simp [show ¬n ≤ 31 by omega, h.ne', BitVec.ushiftRight_eq_zero h.le,
      BitVec.getLsbD_of_ge v (n - 1) (by omega)]

/-- A signed shift by the width or more leaves copies of the sign (R135). -/
theorem sshiftRight_of_le (h : 32 ≤ n) : v.sshiftRight n = if v.getLsbD 31 then 0xFFFFFFFF#32 else 0#32 := by
  have hones : ∀ k, k < 32 → (0xFFFFFFFF#32).getLsbD k = true := by decide
  refine BitVec.eq_of_getLsbD_eq fun k hk => ?_
  rw [BitVec.getLsbD_sshiftRight, if_neg (by omega), BitVec.msb_eq_getLsbD_last]
  split
  · next hv => rw [hones k hk, hv, decide_eq_false hk.not_ge]; rfl
  · next hv => rw [Bool.eq_false_of_not_eq_true hv, Bool.and_false, BitVec.getLsbD_zero]

theorem shiftAsr_eq : shiftAsr v n cin =
    ⟨v.sshiftRight n, if n = 0 then cin else (v.sshiftRight (n - 1)).getLsbD 0⟩ := by
  obtain rfl | hn := eq_or_ne n 0
  · simp [shiftAsr]
  have hlast : (v.sshiftRight (n - 1)).getLsbD 0 = if n - 1 < 32 then v.getLsbD (n - 1) else v.getLsbD 31 := by
    rw [BitVec.getLsbD_sshiftRight, BitVec.msb_eq_getLsbD_last]
    simp
  simp only [shiftAsr, if_neg hn, hlast]
  obtain h | rfl | h : n ≤ 31 ∨ n = 32 ∨ 32 < n := by omega
  · simp [h, show n - 1 < 32 by omega]
  · simp [sshiftRight_of_le]
  · simp [show ¬n ≤ 31 by omega, show ¬n - 1 < 32 by omega, sshiftRight_of_le v n h.le]

/-- Rotation moves bit (k + n) mod 32 to bit k. -/
theorem getLsbD_rotateRight_mod {k : Nat} (hk : k < 32) : (v.rotateRight n).getLsbD k = v.getLsbD ((k + n) % 32) := by
  rw [BitVec.getLsbD_rotateRight]
  by_cases h : k < 32 - n % 32
  · rw [show (k + n) % 32 = n % 32 + k by omega]
    simp [h]
  · rw [show (k + n) % 32 = k - (32 - n % 32) by omega]
    simp [h, hk]

theorem rotateRight_of_mod_eq_zero (h : n % 32 = 0) : v.rotateRight n = v :=
  BitVec.eq_of_getLsbD_eq fun k hk => by
    rw [getLsbD_rotateRight_mod v n hk, show (k + n) % 32 = k by omega]

theorem shiftRor_eq : shiftRor v n cin =
    ⟨v.rotateRight n, if n = 0 then cin else v.getLsbD ((n - 1) % 32)⟩ := by
  obtain rfl | hn := eq_or_ne n 0
  · simp [shiftRor, rotateRight_of_mod_eq_zero]
  simp only [shiftRor, if_neg hn, BitVec.rotateRight_mod_eq_rotateRight]
  split
  · next h => rw [show (n - 1) % 32 = 31 by omega, rotateRight_of_mod_eq_zero v n h]
  · next h => rw [show (n - 1) % 32 = n % 32 - 1 by omega]

/-- Bit 0 of a word is its signed value's parity. -/
theorem getLsbD_zero_eq_toInt : v.getLsbD 0 = decide (v.toInt % 2 = 1) := by
  rw [← BitVec.testBit_toNat, Nat.testBit_zero, decide_eq_decide, BitVec.toInt_eq_toNat_cond]
  omega

theorem toInt_sshiftRight_div : (v.sshiftRight n).toInt = v.toInt / 2 ^ n := by
  rw [BitVec.toInt_sshiftRight, Int.shiftRight_eq_div_pow, Nat.cast_pow, Nat.cast_ofNat]

theorem shiftRrx_toNat : (shiftRrx v cin).r.toNat = v.toNat / 2 + if cin then 2147483648 else 0 := by
  have hlt : v.toNat / 2 < 2 ^ 31 := by have := v.isLt; omega
  cases cin with
  | false => simp [shiftRrx, Nat.shiftRight_eq_div_pow]
  | true =>
    have hor := Nat.two_pow_add_eq_or_of_lt hlt 1
    simp only [shiftRrx, BitVec.toNat_or, BitVec.toNat_ushiftRight, Nat.shiftRight_eq_div_pow, if_true]
    exact hor.symm.trans (Nat.add_comm ..)

end

/-- Settles O32: each shift is the library's exact shift, whose value and last bit out are arithmetic. -/
theorem shifterIsExact : Obligations.ShifterIsExact := by
  intro v n imm5 cin
  rw [shiftLsl_eq v n, shiftLsr_eq v n, shiftAsr_eq v n, shiftRor_eq v n]
  refine ⟨?_, ?_, ?_, rfl, toInt_sshiftRight_div v n, ?_, fun k hk => getLsbD_rotateRight_mod v n hk, rfl,
    shiftRrx_toNat v cin, rfl, rfl, fun h => ?_, fun h => ?_⟩
  · rw [BitVec.toNat_shiftLeft, Nat.shiftLeft_eq]
  · rw [Nat.testBit_mul_two_pow]
    rfl
  · rw [BitVec.toNat_ushiftRight, Nat.shiftRight_eq_div_pow]
  · rw [getLsbD_zero_eq_toInt, toInt_sshiftRight_div]
  · exact ⟨congrArg (shiftLsr v · cin) (if_pos h), congrArg (shiftAsr v · cin) (if_pos h), if_pos h⟩
  · exact ⟨congrArg (shiftLsr v · cin) (if_neg h), congrArg (shiftAsr v · cin) (if_neg h), if_neg h⟩

end Sys2Proof.Machine

namespace Sys2Proof.Machine

/-! ### The flag engine as exact arithmetic (R140 to R143) -/

/-- The sum m + n + k modulo 2^32, C its unsigned and V its signed overflow. -/
def exactSum (m n : Word) (k : Nat) : Sum where
  r := m + n + BitVec.ofNat 32 k
  c := decide (4294967296 ≤ m.toNat + n.toNat + k)
  v := decide (m.toInt + n.toInt + k < -2147483648 ∨ 2147483647 < m.toInt + n.toInt + k)

/-- The difference m - n - k modulo 2^32, C the absence of a borrow and V its signed overflow. -/
def exactDifference (m n : Word) (k : Nat) : Sum where
  r := m - n - BitVec.ofNat 32 k
  c := decide (n.toNat + k ≤ m.toNat)
  v := decide (m.toInt - n.toInt - k < -2147483648 ∨ 2147483647 < m.toInt - n.toInt - k)

section
variable (a b : Word)

/-- The signs of the operands and of the result tell whether a sum left the signed range (R140). -/
theorem sum_overflow {k : Nat} (hk : k ≤ 1) :
    (a.msb == b.msb && (a + b + BitVec.ofNat 32 k).msb != a.msb) = (exactSum a b k).v := by
  have ha := a.isLt
  have hb := b.isLt
  rw [exactSum, Bool.eq_iff_iff, decide_eq_true_iff]
  simp only [BitVec.msb_eq_decide, BitVec.toNat_add, BitVec.toNat_ofNat, BitVec.toInt_eq_toNat_cond,
    Bool.and_eq_true, beq_iff_eq, bne_iff_ne, ne_eq, decide_eq_decide]
  omega

/-- The signs of the operands and of the result tell whether a difference left the signed range (R142, R143). -/
theorem difference_overflow {k : Nat} (hk : k ≤ 1) :
    (a.msb != b.msb && (a - b - BitVec.ofNat 32 k).msb != a.msb) = (exactDifference a b k).v := by
  have ha := a.isLt
  have hb := b.isLt
  rw [exactDifference, Bool.eq_iff_iff, decide_eq_true_iff]
  simp only [BitVec.msb_eq_decide, BitVec.toNat_sub, BitVec.toNat_ofNat, BitVec.toInt_eq_toNat_cond,
    Bool.and_eq_true, bne_iff_ne, ne_eq, decide_eq_decide]
  omega

theorem addWithCarry_eq (cin : Bool) : addWithCarry a b cin = exactSum a b cin.toNat := by
  have ha := a.isLt
  have hb := b.isLt
  have hcin := cin.toNat_le
  have hsum : (a.setWidth 64 + b.setWidth 64 + (BitVec.ofBool cin).setWidth 64).toNat =
      a.toNat + b.toNat + cin.toNat := by
    simp only [BitVec.toNat_add, BitVec.toNat_setWidth, BitVec.toNat_ofBool]
    omega
  have hr : (a.setWidth 64 + b.setWidth 64 + (BitVec.ofBool cin).setWidth 64).extractLsb' 0 32 =
      a + b + BitVec.ofNat 32 cin.toNat := by
    refine BitVec.eq_of_toNat_eq ?_
    rw [BitVec.extractLsb'_toNat, hsum]
    simp
  have hc : (a.setWidth 64 + b.setWidth 64 + (BitVec.ofBool cin).setWidth 64).getLsbD 32 =
      (exactSum a b cin.toNat).c := by
    rw [← BitVec.testBit_toNat, hsum, Nat.testBit_eq_decide_div_mod_eq, exactSum, decide_eq_decide]
    omega
  simp only [addWithCarry, hr, hc, sum_overflow a b hcin]
  rfl

theorem subtractWithCarry_eq (cin : Bool) : subtractWithCarry a b cin = exactDifference a b (1 - cin.toNat) := by
  have hk : (if cin then 0 else 1) = 1 - cin.toNat := by cases cin <;> rfl
  simp only [subtractWithCarry, hk, difference_overflow a b (Nat.sub_le ..)]
  rfl

theorem subtract_eq_withCarry : subtract a b = subtractWithCarry a b true := by
  simp only [subtract, subtractWithCarry, if_true, BitVec.sub_zero, Nat.add_zero]

theorem subtract_eq : subtract a b = exactDifference a b 0 := by
  rw [subtract_eq_withCarry, subtractWithCarry_eq]
  rfl

/-- A subtraction is the addition of the complement (R142, R143). -/
theorem exactDifference_eq_exactSum_not {k : Nat} (hk : k ≤ 1) :
    exactDifference a b (1 - k) = exactSum a (~~~b) k := by
  have hb := b.isLt
  have hnot : (~~~b).toNat = 4294967295 - b.toNat := BitVec.toNat_not
  have hint : (~~~b).toInt = -b.toInt - 1 := by
    simp only [BitVec.toInt_eq_toNat_cond, hnot]
    omega
  have hr : a - b - BitVec.ofNat 32 (1 - k) = a + ~~~b + BitVec.ofNat 32 k := by
    refine BitVec.eq_of_toNat_eq ?_
    simp only [BitVec.toNat_add, BitVec.toNat_sub, BitVec.toNat_ofNat, hnot]
    omega
  simp only [exactDifference, exactSum, hr, hint, hnot, Sum.mk.injEq, decide_eq_decide, true_and]
  omega

variable (k : Nat)

theorem exactSum_r_eq_ofNat : (exactSum a b k).r = BitVec.ofNat 32 (a.toNat + b.toNat + k) := by
  rw [BitVec.ofNat_add, BitVec.ofNat_add, BitVec.ofNat_toNat, BitVec.ofNat_toNat, BitVec.setWidth_eq, BitVec.setWidth_eq]
  rfl

theorem exactDifference_r_eq_ofInt : (exactDifference a b k).r = BitVec.ofInt 32 (a.toInt - b.toInt - k) := by
  rw [Int.sub_eq_add_neg, Int.sub_eq_add_neg, BitVec.ofInt_add, BitVec.ofInt_add, BitVec.ofInt_neg, BitVec.ofInt_neg,
    BitVec.ofInt_toInt, BitVec.ofInt_toInt, BitVec.ofInt_natCast, ← BitVec.sub_eq_add_neg, ← BitVec.sub_eq_add_neg]
  rfl

theorem exactSum_v_iff : (exactSum a b k).v = true ↔ ¬fitsSigned (a.toInt + b.toInt + k) := by
  rw [exactSum, decide_eq_true_iff, fitsSigned]
  omega

theorem exactDifference_v_iff : (exactDifference a b k).v = true ↔ ¬fitsSigned (a.toInt - b.toInt - k) := by
  rw [exactDifference, decide_eq_true_iff, fitsSigned]
  omega

end

/-- Settles O33: the model's sums and differences are the exact ones, and a difference is a sum with the complement. -/
theorem flagEngineIsExact : Obligations.FlagEngineIsExact := by
  intro a b cin
  have hcomplement : ∀ cin : Bool, exactDifference a b (1 - cin.toNat) = exactSum a (~~~b) cin.toNat := fun cin =>
    exactDifference_eq_exactSum_not a b cin.toNat_le
  have hr := exactDifference_r_eq_ofInt a b 0
  have hv := exactDifference_v_iff a b 0
  rw [Nat.cast_zero, Int.sub_zero] at hr hv
  simp only [addWithCarry_eq, subtractWithCarry_eq, subtract_eq]
  exact ⟨exactSum_r_eq_ofNat a b _, decide_eq_true_iff, exactSum_v_iff a b _, hr, decide_eq_true_iff, hv,
    exactDifference_r_eq_ofInt a b _, decide_eq_true_iff, exactDifference_v_iff a b _, hcomplement true, hcomplement cin⟩

end Sys2Proof.Machine

namespace Sys2Proof.Machine

/-! ### Data processing by its form: what is written where Rd is not R15 -/

section
variable (a b : Word) (cin : Bool)

/-- Without a carry in, a sum's result is a + b and its flags are exact (R140, R145). -/
theorem arithmetic_add : arithmetic (addWithCarry a b false) = ⟨a + b, (exactSum a b 0).flags⟩ := by
  have hr : (exactSum a b 0).r = a + b := BitVec.add_zero _
  rw [addWithCarry_eq, ← hr]
  rfl

theorem arithmetic_addWithCarry : arithmetic (addWithCarry a b cin) = arithmetic (exactSum a b cin.toNat) :=
  congrArg arithmetic (addWithCarry_eq a b cin)

theorem arithmetic_subtract : arithmetic (subtract a b) = ⟨a - b, (exactDifference a b 0).flags⟩ := by
  rw [← subtract_eq]
  rfl

theorem arithmetic_subtractWithCarry :
    arithmetic (subtractWithCarry a b cin) = arithmetic (exactDifference a b (1 - cin.toNat)) :=
  congrArg arithmetic (subtractWithCarry_eq a b cin)

end

section
variable {op : AluOp} {c : Cond} {sf : Bool} {rn rd : Reg} {s : State} {x : Operand2}

/-- A result that goes to a register other than R15 (R163). -/
theorem writeResult_eq (hrd : rd ≠ 15#4) (y : AluResult) (n : Nat) : writeResult sf rd y (s.charge n) =
    .next (s.wrote rd y.r (if sf then s.cpu.cpsr.withFlags y.flags else s.cpu.cpsr) n) := by
  rw [writeResult, if_neg hrd, State.charge, State.withCpu_withCpu]
  refine congrArg Host.Outcome.next (State.withCpu_congr ?_)
  cases sf with
  | false => rfl
  | true => rfl

theorem writeFlags_eq (y : AluResult) (n : Nat) : writeFlags y (s.charge n) =
    .next (s.tested (s.cpu.cpsr.withFlags y.flags) n) := by
  rw [writeFlags, State.charge, State.withCpu_withCpu]
  exact congrArg Host.Outcome.next (State.withCpu_congr rfl)

theorem exec_dpInstr_wrote (hc : condPassed c s.cpu.cpsr = true) (hx : x.Allowed) (hrd : rd ≠ 15#4)
    (write : op.isTest = false) {y : AluResult}
    (hy : alu op (s.operandOne rn x) (s.operandTwo x).r (s.operandTwo x).c s.cpu.cpsr.flags = y) :
    exec (dpInstr op c sf rn rd x) s =
      .next (s.wrote rd y.r (if sf then s.cpu.cpsr.withFlags y.flags else s.cpu.cpsr) x.cycles) := by
  rw [exec_dpInstr_write hc hx write, hy, writeResult_eq hrd]

/-- The carry that the statements give TST and TEQ is the model's (R161); CMP and CMN look at none. -/
theorem alu_test_carry (htest : op.isTest = true) (rot : BitVec 4) (imm8 : BitVec 8) (a b : Word) (old : Flags) :
    alu op a b (s.immCarry op rot imm8) old = alu op a b (s.testCarry (.imm rot imm8)) old := by
  have hcarry : op.isFlagsTest = true → s.immCarry op rot imm8 = s.testCarry (.imm rot imm8) := fun h => by
    simp only [State.immCarry, State.testCarry, h]
    cases s.cfg.immCarryTest with
    | false => rfl
    | true => rfl
  cases op with
  | tst | teq => rw [hcarry rfl]
  | cmp | cmn => rfl
  | _ => cases htest

/-- What a test does on its two operands (R160 to R163, R173 to R176, R181). -/
theorem exec_dpInstr_tested (hc : condPassed c s.cpu.cpsr = true) (hx : x.Allowed) (htest : op.isTest = true)
    {y : AluResult} (hy : alu op (s.operandOne rn x) (s.operandTwo x).r (s.testCarry x) s.cpu.cpsr.flags = y) :
    exec (dpInstr op c sf rn rd x) s = .next (s.tested (s.cpu.cpsr.withFlags y.flags) x.cycles) := by
  have hform : exec (dpInstr op c sf rn rd x) s = dpForm op true rn 0#4 x s := by
    cases x with
    | imm | rsi | rsr =>
      cases op with
      | tst | teq | cmp | cmn => exact ifPassed_of_passed hc _
      | _ => cases htest
  rw [hform, ← writeFlags_eq, ← hy]
  cases x with
  | imm rot imm8 =>
    rw [← alu_test_carry htest, show s.charge (Operand2.imm rot imm8).cycles = s from State.charge_zero s]
    exact if_pos htest
  | rsi sh ty rm =>
    rw [show s.charge (Operand2.rsi sh ty rm).cycles = s from State.charge_zero s]
    exact if_pos htest
  | rsr rs ty rm =>
    have hflags : (s.charge 1).cpu.cpsr.flags = s.cpu.cpsr.flags := by rw [State.charge_cpu]; rfl
    rw [← hflags]
    exact (if_neg hx).trans (if_pos htest)

end

/-- Settles O34: each logical opcode's result and carry in the shape of the write and of the test. -/
theorem logicalOperations : Obligations.LogicalOperations := by
  intro c sf rn rd x s hc hx hrd
  have write (op : AluOp) (h : op.isTest = false) := exec_dpInstr_wrote (sf := sf) (rn := rn) hc hx hrd h rfl
  have test (op : AluOp) (h : op.isTest = true) := exec_dpInstr_tested (sf := sf) (rn := rn) (rd := rd) hc hx h rfl
  exact ⟨write .and rfl, write .eor rfl, write .orr rfl, write .mov rfl, write .bic rfl, write .mvn rfl,
    test .tst rfl, test .teq rfl⟩

/-- Settles O35: the same two shapes, with the opcodes' exact sums and differences. -/
theorem arithmeticOperations : Obligations.ArithmeticOperations := by
  intro c sf rn rd x s hc hx hrd
  have write (op : AluOp) (h : op.isTest = false) {y : AluResult} :=
    exec_dpInstr_wrote (sf := sf) (rn := rn) (y := y) hc hx hrd h
  have test (op : AluOp) (h : op.isTest = true) {y : AluResult} :=
    exec_dpInstr_tested (sf := sf) (rn := rn) (rd := rd) (y := y) hc hx h
  exact ⟨write .sub rfl (arithmetic_subtract ..), write .rsb rfl (arithmetic_subtract ..),
    write .add rfl (arithmetic_add ..), write .adc rfl (arithmetic_addWithCarry ..),
    write .sbc rfl (arithmetic_subtractWithCarry ..), write .rsc rfl (arithmetic_subtractWithCarry ..),
    test .cmp rfl (arithmetic_subtract ..), test .cmn rfl (arithmetic_add ..)⟩

end Sys2Proof.Machine

namespace Sys2Proof.Machine

/-! ### Saturation and leading zeros (R146, R203 to R207) -/

/-- An integer clamped to 32 signed bits. -/
def clampSigned (v : Int) : Int := max (-2147483648) (min 2147483647 v)

theorem clampSigned_of_fits {v : Int} (h : fitsSigned v) : clampSigned v = v := by
  obtain ⟨hl, hu⟩ := h
  rw [clampSigned, min_eq_right hu, max_eq_right hl]

theorem signedSat32_eq (v : Int) : signedSat32 v = ⟨BitVec.ofInt 32 (clampSigned v), decide (clampSigned v ≠ v)⟩ := by
  unfold signedSat32
  split
  · next h =>
    have hclamp : clampSigned v = 2147483647 := by unfold clampSigned; omega
    rw [hclamp, decide_eq_true h.ne]
    rfl
  · split
    · next h =>
      have hclamp : clampSigned v = -2147483648 := by unfold clampSigned; omega
      rw [hclamp, decide_eq_true h.ne']
      rfl
    · next hu hl =>
      rw [clampSigned_of_fits ⟨by omega, by omega⟩, decide_eq_false (fun h => h rfl)]

theorem toInt_ofInt_clampSigned (v : Int) : (BitVec.ofInt 32 (clampSigned v)).toInt = clampSigned v := by
  refine BitVec.toInt_ofInt_eq_self (by decide) ?_ ?_
  · unfold clampSigned; omega
  · unfold clampSigned; omega

/-- A saturation before another one: what it leaves is clamped, and its Q is remembered (R205, R206). -/
theorem saturate_clamped (g : Int → Int) (v : Int) : saturate (signedSat32 v).sat (g (signedSat32 v).r.toInt) =
    saturate (decide (clampSigned v ≠ v)) (g (clampSigned v)) := by
  rw [signedSat32_eq, toInt_ofInt_clampSigned]

theorem leadingZeros_le (v : Word) (n : Nat) : leadingZeros v n ≤ n := by
  induction n with
  | zero => exact le_refl 0
  | succ n ih =>
    rw [leadingZeros]
    split <;> omega

/-- The leading zeros of the low n bits place their value between two powers of 2 (R207). -/
theorem leadingZeros_spec (v : Word) (n : Nat) : v.toNat % 2 ^ n < 2 ^ (n - leadingZeros v n) ∧
    (leadingZeros v n < n → 2 ^ (n - 1 - leadingZeros v n) ≤ v.toNat % 2 ^ n) := by
  induction n with
  | zero => simp [leadingZeros, Nat.mod_one]
  | succ n ih =>
    have hbit := Nat.mod_pow_succ (b := 2) (k := n) (x := v.toNat)
    have hpow := Nat.two_pow_pos n
    rw [leadingZeros, ← BitVec.testBit_toNat, Nat.testBit_eq_decide_div_mod_eq]
    split
    · next h =>
      rw [of_decide_eq_true h, Nat.mul_one] at hbit
      rw [Nat.sub_zero, Nat.add_sub_cancel, Nat.sub_zero]
      exact ⟨Nat.mod_lt _ (Nat.two_pow_pos _), fun _ => by omega⟩
    · next h =>
      have h0 : v.toNat / 2 ^ n % 2 = 0 := by simpa using h
      rw [h0, Nat.mul_zero, Nat.add_zero] at hbit
      rw [hbit, Nat.add_sub_add_right, Nat.add_sub_cancel, Nat.add_lt_add_iff_right]
      exact ⟨ih.1, fun hlt => by rw [Nat.add_comm, ← Nat.sub_sub]; exact ih.2 hlt⟩

section
variable {c : Cond} {rn rd rm : Reg} {s : State}

theorem not_anyPc {rs : List Reg} (h : ∀ r ∈ rs, r ≠ 15#4) : ¬anyPc rs = true := fun hpc =>
  h _ (List.contains_iff_mem.mp hpc) rfl

theorem onlyIfA_ifPassed_of_passed (hA : s.cur = .A) (hc : condPassed c s.cpu.cpsr = true) (f : State → Result) :
    onlyIfA s (fun s => ifPassed c s f) = f s := (onlyIfA_of_A hA _).trans (ifPassed_of_passed hc f)

theorem finishPlain_eq (rd : Reg) (r : Word) (n : Nat) (s : State) :
    finishPlain rd r n s = .next (s.wrote rd r s.cpu.cpsr n) := congrArg Host.Outcome.next (State.withCpu_congr rfl)

theorem finishSticky_eq (rd : Reg) (x : Saturated) (n : Nat) (s : State) : finishSticky rd x n s =
    .next (s.wrote rd x.r { s.cpu.cpsr with q := s.cpu.cpsr.q || x.sat } n) :=
  congrArg Host.Outcome.next (State.withCpu_congr rfl)

/-- A saturating instruction writes the clamped value and sets Q if it, or a step before it, was clamped (R203). -/
theorem saturating_eq (hrn : rn ≠ 15#4) (hrd : rd ≠ 15#4) (hrm : rm ≠ 15#4) {f : Word → Word → Saturated} {v : Int}
    {earlier : Bool} (hf : f (s.cpu.gpr rm) (s.cpu.gpr rn) = saturate earlier v) : saturating rn rd rm f s =
      .next (s.wrote rd (BitVec.ofInt 32 (clampSigned v))
        { s.cpu.cpsr with q := s.cpu.cpsr.q || earlier || decide (clampSigned v ≠ v) } 0) := by
  rw [saturating, if_neg (not_anyPc (by simp [hrn, hrd, hrm])), hf, finishSticky_eq, saturate,
    signedSat32_eq, Bool.or_assoc]

end

/-- Settles O39: saturation is clamping, by itself for the doubling, and CLZ is bounded by powers of 2. -/
theorem saturatingAndLeadingZeros : Obligations.SaturatingAndLeadingZeros := by
  intro c rn rd rm s hA hc hrn hrd hrm
  have run (f : Word → Word → Saturated) {v : Int} {earlier : Bool}
      (hf : f (s.cpu.gpr rm) (s.cpu.gpr rn) = saturate earlier v) :=
    (onlyIfA_ifPassed_of_passed hA hc (saturating rn rd rm f)).trans (saturating_eq hrn hrd hrm hf)
  obtain ⟨hlt, hle⟩ := leadingZeros_spec (s.cpu.gpr rm) 32
  rw [Nat.mod_eq_of_lt (s.cpu.gpr rm).isLt] at hlt hle
  refine ⟨run _ rfl, run _ rfl, run _ (saturate_clamped (_ + ·) _), run _ (saturate_clamped (_ - ·) _),
    leadingZeros (s.cpu.gpr rm) 32, ?_, leadingZeros_le _ 32, hlt, hle⟩
  exact (onlyIfA_ifPassed_of_passed hA hc _).trans ((if_neg (not_anyPc (by simp [hrd, hrm]))).trans (finishPlain_eq ..))

end Sys2Proof.Machine

namespace Sys2Proof.Machine

/-! ### The Thumb shifter, flag engine and multiply -/

section
variable (s : State) (rd : LowReg)

theorem thumbWrite_eq (y : AluResult) (n : Nat) : thumbWrite rd y n s =
    .next (s.wroteThumb (rd.setWidth 4) y.r (s.cpu.cpsr.withFlags y.flags) n) :=
  congrArg Host.Outcome.next (State.withCpu_congr rfl)

theorem thumbFlags_eq (y : AluResult) : thumbFlags y s = .next (s.testedThumb (s.cpu.cpsr.withFlags y.flags)) :=
  congrArg Host.Outcome.next (State.withCpu_congr rfl)

section
variable (a b : Word) (cin : Bool)

theorem thumbWrite_addWithCarry : thumbWrite rd (arithmetic (addWithCarry a b cin)) 0 s =
    .next (s.wroteThumb (rd.setWidth 4) (exactSum a b cin.toNat).r
      (s.cpu.cpsr.withFlags (exactSum a b cin.toNat).flags) 0) := by
  rw [addWithCarry_eq, thumbWrite_eq]
  rfl

theorem thumbWrite_subtractWithCarry : thumbWrite rd (arithmetic (subtractWithCarry a b cin)) 0 s =
    .next (s.wroteThumb (rd.setWidth 4) (exactDifference a b (1 - cin.toNat)).r
      (s.cpu.cpsr.withFlags (exactDifference a b (1 - cin.toNat)).flags) 0) := by
  rw [subtractWithCarry_eq, thumbWrite_eq]
  rfl

theorem thumbWrite_subtract : thumbWrite rd (arithmetic (subtract a b)) 0 s =
    .next (s.wroteThumb (rd.setWidth 4) (exactDifference a b 0).r
      (s.cpu.cpsr.withFlags (exactDifference a b 0).flags) 0) := by
  rw [subtract_eq_withCarry, thumbWrite_subtractWithCarry]
  rfl

end

theorem ProcState.shiftAmount_eq (p : ProcState) (rs : Reg) : p.shiftAmount rs = (p.gpr rs).toNat % 256 := by
  rw [ProcState.shiftAmount, BitVec.extractLsb'_toNat, Nat.shiftRight_zero]

/-- An encoded amount of 0 is 32 for the right shifts (R137), by the amount's value. -/
theorem encodedAmount_eq (imm5 : BitVec 5) :
    (if imm5 = 0#5 then 32 else imm5.toNat) = if imm5.toNat = 0 then 32 else imm5.toNat :=
  if_congr BitVec.toNat_eq rfl rfl

end

section
variable {s : State}

theorem State.multiplyCarry_of_A (hA : s.cur = .A) : s.multiplyCarry = s.cpu.cpsr.c := by
  simp only [State.multiplyCarry, hA]

theorem State.multiplyCarry_of_B (hB : s.cur = .B) : s.multiplyCarry = Config.freeCarry s.draws := by
  simp only [State.multiplyCarry, hB]

theorem State.spendCarry_of_A (hA : s.cur = .A) (sf : Bool) : s.spendCarry sf = s := by
  simp only [State.spendCarry, hA]

theorem State.spendCarry_of_B (hB : s.cur = .B) : s.spendCarry true = { s with draws := s.draws + 1 } := by
  simp only [State.spendCarry, hB]

end

/-- Settles O54: every shift is the shifter's value and carry, written with one flag update. -/
theorem thumbShifts : Obligations.ThumbShifts := by
  intro off5 rs rd s
  have shifted (x : Shifted) (n : Nat) := thumbWrite_eq s rd (s.thumbShift x) n
  have amount := s.cpu.shiftAmount_eq (wide rs)
  have byRegister (shift : Nat → Shifted) := amount ▸ shifted (shift (s.cpu.shiftAmount (wide rs))) 1
  dsimp only
  rw [← encodedAmount_eq]
  exact ⟨shifted _ 0, shifted _ 0, shifted _ 0, byRegister fun n => shiftLsl _ n _, byRegister fun n => shiftLsr _ n _,
    byRegister fun n => shiftAsr _ n _, byRegister fun n => shiftRor _ n _⟩

/-- Settles O55: the opcodes' exact sums and differences, written or only flagged. -/
theorem thumbArithmetic : Obligations.ThumbArithmetic := by
  intro rn rs rd off3 off8 s
  have plus (a b : Word) := thumbWrite_addWithCarry s rd a b false
  have minus (a b : Word) := thumbWrite_subtract s rd a b
  have compare (a b : Word) := (congrArg (thumbFlags · s) (arithmetic_subtract a b)).trans (thumbFlags_eq s _)
  have compareNegative (a b : Word) := (congrArg (thumbFlags · s) (arithmetic_add a b)).trans (thumbFlags_eq s _)
  exact ⟨plus _ _, minus _ _, plus _ _, minus _ _, plus _ _, minus _ _, thumbWrite_addWithCarry ..,
    thumbWrite_subtractWithCarry .., minus _ _, compare _ _, compare _ _, compareNegative _ _⟩

/-- Settles O56: the logical opcodes by the write of their result, the multiply by the processor it runs on. -/
theorem thumbLogicAndMultiply : Obligations.ThumbLogicAndMultiply := by
  intro rs rd off8 s
  have write (y : AluResult) := thumbWrite_eq s rd y 0
  refine ⟨write _, write _, write _, write _, write _, write _, thumbFlags_eq s _, fun hA => ?_, fun hB => ?_⟩
  · show execTMul rs rd s = _
    rw [execTMul, multiplierCycles_eq_operandCycles, State.multiplyCarry_of_A hA, State.spendCarry_of_A hA, thumbWrite_eq]
    rfl
  · show execTMul rs rd s = _
    rw [execTMul, multiplierCycles_eq_operandCycles, State.multiplyCarry_of_B hB, State.spendCarry_of_B hB, thumbWrite_eq]
    rfl

end Sys2Proof.Machine

namespace Sys2Proof.Machine

/-! ### Operands the spec refuses (R160, R190, R220, R223, R224, R226, R231, R232, R237, R250, R263, R266, R267, R321)

A refusal is the first thing a meaning looks at once its condition has passed. A class that only A has stops on B without
looking, so that it stops on either processor. -/

section
variable {c : Cond} {s : State} {f : State → Result}

theorem ifPassed_eq_fatal (hc : condPassed c s.cpu.cpsr = true) (h : f s = fatal s) : ifPassed c s f = fatal s :=
  (ifPassed_of_passed hc f).trans h

theorem onlyIfA_eq_fatal (h : f s = fatal s) : onlyIfA s f = fatal s := by
  unfold onlyIfA
  split
  · exact h
  · rfl

theorem onlyIfA_ifPassed_eq_fatal (hc : condPassed c s.cpu.cpsr = true) (h : f s = fatal s) :
    onlyIfA s (fun s => ifPassed c s f) = fatal s := onlyIfA_eq_fatal (ifPassed_eq_fatal hc h)

@[simp] theorem anyPc_nil : anyPc [] = false := rfl

@[simp] theorem anyPc_cons {r : Reg} {rs : List Reg} : anyPc (r :: rs) = true ↔ r = 15#4 ∨ anyPc rs = true := by
  rw [anyPc, List.contains_iff_mem, List.mem_cons, eq_comm, anyPc, List.contains_iff_mem]

theorem exec_dpInstr_rsr_pc (hc : condPassed c s.cpu.cpsr = true) (op : AluOp) (sf : Bool) (rn rd : Reg) {rs : Reg}
    (ty : ShiftType) (rm : Reg) (hrs : rs = 15#4) : exec (dpInstr op c sf rn rd (.rsr rs ty rm)) s = fatal s := by
  cases op with
  | _ => exact ifPassed_eq_fatal hc (if_pos hrs)

end

section
variable {p u w : Bool} {rn rd : Reg} {s : State} {f : Transfer → State → Result}

/-- The work f of a transfer stops whatever the address, the base being written back as P and W say (R220). -/
def WorkStops (p w : Bool) (s : State) (f : Transfer → State → Result) : Prop :=
  ∀ x : Transfer, x.writeback.isSome = (!p || w) → f x s = fatal s

theorem transfer_eq_fatal {off : Word} (h : ((!p || w) = true ∧ rn = 15#4) ∨ WorkStops p w s f) :
    transfer p u w rn off s f = fatal s := by
  obtain ⟨hback, hpc⟩ | hf := h
  · exact if_pos ⟨transferOf_writeback_isSome.trans hback, hpc⟩
  · exact ite_eq_left_iff.mpr fun _ => hf _ transferOf_writeback_isSome

theorem transferAtOffset_eq_fatal {off : MemOffset}
    (h : ((!p || w) = true ∧ rn = 15#4) ∨ ¬off.Allowed ∨ WorkStops p w s f) :
    transferAtOffset p u w rn off s f = fatal s := by
  cases off with
  | imm off12 => exact transfer_eq_fatal (h.imp_right fun h => h.resolve_left (· trivial))
  | reg sh ty rm =>
    exact ite_eq_left_iff.mpr fun hrm => transfer_eq_fatal (h.imp_right fun h => h.resolve_left (· hrm))

theorem transferHalf_eq_fatal {off : HalfOffset}
    (h : ((!p || w) = true ∧ rn = 15#4) ∨ ¬off.Allowed ∨ WorkStops p w s f) :
    transferHalf p u w rn off s f = fatal s := by
  cases off with
  | imm v => exact transfer_eq_fatal (h.imp_right fun h => h.resolve_left (· trivial))
  | reg rm => exact ite_eq_left_iff.mpr fun hrm => transfer_eq_fatal (h.imp_right fun h => h.resolve_left (· hrm))

theorem workStops_byte {load byte : Bool} (h : byte = true ∧ rd = 15#4) :
    WorkStops p w s (singleWork load byte rd rn) := by
  obtain ⟨rfl, hrd⟩ := h
  cases load with
  | false => exact fun _ _ => if_pos hrd
  | true => exact fun _ _ => if_pos hrd

/-- An odd or overlapping pair (R231, R232). -/
theorem workStops_pair (h : rd.getLsbD 0 = true ∨ rd = 14#4 ∨ ((!p || w) = true ∧ (rn = rd ∨ rn = rd + 1#4))) :
    WorkStops p w s (doLdrd rd rn) ∧ WorkStops p w s (doStrd rd rn) := by
  have refused {x : Transfer} (hx : x.writeback.isSome = (!p || w)) : pairRefused rd rn x = true := by
    simpa [pairRefused, hx, or_assoc] using h
  exact ⟨fun _ hx => if_pos (refused hx), fun _ hx => if_pos (refused hx)⟩

theorem exec_pair_eq_fatal {c : Cond} {off : HalfOffset} (hc : condPassed c s.cpu.cpsr = true)
    (h : ((!p || w) = true ∧ rn = 15#4) ∨ ¬off.Allowed ∨
      rd.getLsbD 0 = true ∨ rd = 14#4 ∨ ((!p || w) = true ∧ (rn = rd ∨ rn = rd + 1#4))) :
    exec (.ldrd c p u w rn rd off) s = fatal s ∧ exec (.strd c p u w rn rd off) s = fatal s := by
  have work := h.imp_right (Or.imp_right (workStops_pair (s := s)))
  exact ⟨onlyIfA_ifPassed_eq_fatal hc (transferHalf_eq_fatal (work.imp_right (Or.imp_right And.left))),
    onlyIfA_ifPassed_eq_fatal hc (transferHalf_eq_fatal (work.imp_right (Or.imp_right And.right)))⟩

theorem blockRefused_eq_true {list : BitVec 16} (h : list = 0#16 ∨ rn = 15#4) :
    blockRefused rn (regsOf list) = true := by
  obtain rfl | rfl := h
  · rfl
  · simp [blockRefused]

end

/-- Settles O53: each clause is the test its meanings begin with, or for a transfer the tests of its base, its offset and
its work. -/
theorem refusedOperands : Obligations.RefusedOperands := by
  intro c sf p u w rn rd rs rm s hc stops writesPc
  have stop {f : State → Result} (h : f s = fatal s) : ifPassed c s f = fatal s := ifPassed_eq_fatal hc h
  have stopA {f : State → Result} (h : f s = fatal s) : onlyIfA s (fun s => ifPassed c s f) = fatal s :=
    onlyIfA_ifPassed_eq_fatal hc h
  refine ⟨fun op ty hrs => exec_dpInstr_rsr_pc hc op sf rn rd ty rm hrs, fun h => ?_, fun h => ?_, fun h => ?_,
    fun h => ?_, fun h => ?_, fun load byte off h => ?_, fun off h => ?_,
    fun off h => exec_pair_eq_fatal hc (.inr (.inr h)), fun list h => ?_, fun h => ?_, fun h r => ?_, ?_⟩
  · have hpc : anyPc [rd, rs, rm] = true := by simpa using h
    dsimp only [stops, exec]
    exact ⟨stop (if_pos hpc), fun x y => ⟨stopA (if_pos hpc), stopA (if_pos hpc)⟩⟩
  · have hpc : anyPc [rd, rn, rs, rm] = true := by simpa using h
    dsimp only [stops, exec]
    exact ⟨stop (if_pos hpc), fun x y => ⟨stopA (if_pos hpc), stopA (if_pos hpc)⟩⟩
  · have hlong : anyPc [rd, rn, rs, rm] = true ∨ rd = rn := by simpa [or_assoc] using h
    dsimp only [stops, exec]
    exact ⟨stop (if_pos hlong), stop (if_pos hlong), stop (if_pos hlong), stop (if_pos hlong),
      fun x y => stopA (if_pos hlong)⟩
  · have hpc : anyPc [rn, rd, rm] = true := by simpa using h
    dsimp only [stops, exec]
    exact ⟨stopA (if_pos hpc), stopA (if_pos hpc), stopA (if_pos hpc), stopA (if_pos hpc), stop (if_pos hpc),
      stop (if_pos hpc)⟩
  · have hpc : anyPc [rd, rm] = true := by simpa using h
    dsimp only [stops, exec]
    exact stopA (if_pos hpc)
  · exact (exec_singleInstr ..).trans (stop (transferAtOffset_eq_fatal (h.imp_right (Or.imp_right workStops_byte))))
  · have work {f : Transfer → State → Result} (hf : rd = 15#4 → WorkStops p w s f) :=
      stop (f := fun s => transferHalf p u w rn off s f) (transferHalf_eq_fatal (h.imp_right (Or.imp_right hf)))
    have odd : rd = 15#4 → rd.getLsbD 0 = true := fun h => by rw [h]; rfl
    have pair := exec_pair_eq_fatal (u := u) hc (h.imp_right (Or.imp_right fun hrd => .inl (odd hrd)))
    dsimp only [stops, exec] at pair ⊢
    exact ⟨work fun h _ _ => if_pos h, work fun h _ _ => if_pos h, work fun h _ _ => if_pos h,
      work fun h _ _ => if_pos h, pair⟩
  · have hr := blockRefused_eq_true h
    dsimp only [stops, exec]
    exact ⟨stop (if_pos hr), stop (if_pos hr), stop (if_pos hr), stop (if_pos hr)⟩
  · dsimp only [stops, exec]
    exact ⟨stopA (if_pos h), fun mask => ⟨stop (if_pos h), stop (if_pos h)⟩⟩
  · dsimp only [stops, exec]
    exact stop (if_pos h)
  · dsimp only [stops, exec]
    exact ⟨onlyIfA_eq_fatal (if_pos rfl), if_pos rfl, if_pos rfl, fun rb => ⟨if_pos rfl, if_pos rfl⟩⟩

end Sys2Proof.Machine

namespace Sys2Proof.Machine

/-! ### Multiplies: the carry, the exact products and the signed halves (R190 to R202, R442) -/

section
variable (s : State) (sf : Bool)

/-- A multiply draws a free carry: it sets flags, and it runs on B (R191, log entry 21). -/
abbrev State.DrawsCarry : Prop := sf = true ∧ s.cur = .B

/-- C after a multiply, as the statements put it. -/
abbrev State.carryAfter : Bool := if s.DrawsCarry sf then Config.freeCarry s.draws else s.cpu.cpsr.c

theorem State.multiplyCarry_eq_carryAfter : s.multiplyCarry = s.carryAfter true := by
  cases hcur : s.cur with
  | A => rw [State.multiplyCarry_of_A hcur, State.carryAfter, if_neg (by simp [hcur])]
  | B => rw [State.multiplyCarry_of_B hcur, State.carryAfter, if_pos ⟨rfl, hcur⟩]

theorem State.spendCarry_false : s.spendCarry false = s := by
  unfold State.spendCarry
  split
  · contradiction
  · rfl

theorem State.spendCarry_eq :
    s.spendCarry sf = { s with draws := if s.DrawsCarry sf then s.draws + 1 else s.draws } := by
  cases sf with
  | false => rw [State.spendCarry_false, if_neg (by simp)]
  | true =>
    obtain hcur | hcur : s.cur = .A ∨ s.cur = .B := by cases s.cur <;> simp
    · rw [State.spendCarry_of_A hcur, if_neg (by simp [hcur])]
    · rw [State.spendCarry_of_B hcur, if_pos ⟨rfl, hcur⟩]

variable {s sf}

/-- What a multiply does to its processor matters at the state it meets alone; the draw stands beside it. -/
theorem State.spendCarry_withCpu {f g : ProcState → ProcState} (h : f s.cpu = g s.cpu) :
    (s.spendCarry sf).withCpu f =
      { s.withCpu g with draws := if s.DrawsCarry sf then s.draws + 1 else s.draws } := by
  rw [State.spendCarry_eq, ← State.withCpu_congr h]
  rfl

end

section
variable {s : State} (sf : Bool) (rd rdHi rdLo : Reg) (n : Nat)

/-- The end of MUL and MLA (R192, R193). -/
theorem finishMul_eq (r : Word) : finishMul sf rd r n s = .next
    { s.wrote rd r (if sf then s.cpu.cpsr.nzcv r (s.carryAfter sf) s.cpu.cpsr.v else s.cpu.cpsr) n with
      draws := if s.DrawsCarry sf then s.draws + 1 else s.draws } := by
  refine congrArg Host.Outcome.next (State.spendCarry_withCpu ?_)
  cases sf with
  | false => rfl
  | true =>
    rw [State.multiplyCarry_eq_carryAfter]
    rfl

/-- A processor after RdHi : RdLo was written and an ARM instruction ended: pc on by 4, n internal cycles. -/
abbrev ProcState.wroteLong (p : ProcState) (r : BitVec 64) : ProcState :=
  { (p.setGpr rdLo (r.setWidth 32)).setGpr rdHi ((r >>> 32).setWidth 32) with
    pc := p.pc + 4#32
    ts := p.ts + n }

variable {rdHi rdLo}

/-- A long multiply on registers R190 allows ends with its 64 bits in RdHi : RdLo and their flags (R194 to R197). -/
theorem longMultiply_eq {rs rm : Reg} (hpc : ∀ r ∈ [rdHi, rdLo, rs, rm], r ≠ 15#4) (hne : rdHi ≠ rdLo) (r : BitVec 64) :
    longMultiply sf rdHi rdLo rs rm r n s = .next
      { s.withCpu fun p =>
          { p.wroteLong rdHi rdLo n r with
            cpsr := if sf then { p.cpsr with n := r.msb, z := decide (r = 0#64), c := s.carryAfter sf } else p.cpsr } with
        draws := if s.DrawsCarry sf then s.draws + 1 else s.draws } := by
  rw [longMultiply, if_neg (not_or.mpr ⟨not_anyPc hpc, hne⟩), finishLong, ← BitVec.setWidth_eq_extractLsb' (by decide),
    ← BitVec.setWidth_ushiftRight_eq_extractLsb]
  refine congrArg Host.Outcome.next (State.spendCarry_withCpu ?_)
  cases sf with
  | false => rfl
  | true =>
    rw [State.multiplyCarry_eq_carryAfter]
    rfl

end

section
variable (x y : Word)

theorem unsignedProduct_eq : x.setWidth 64 * y.setWidth 64 = BitVec.ofNat 64 (x.toNat * y.toNat) := by
  rw [BitVec.ofNat_mul, BitVec.ofNat_toNat, BitVec.ofNat_toNat]

theorem signedProduct_eq : x.signExtend 64 * y.signExtend 64 = BitVec.ofInt 64 (x.toInt * y.toInt) :=
  (BitVec.ofInt_mul _ _).symm

theorem ProcState.accumulator_eq (p : ProcState) (rdHi rdLo : Reg) : p.accumulator rdHi rdLo =
    BitVec.ofNat 64 ((p.gpr rdHi).toNat * 4294967296 + (p.gpr rdLo).toNat) := by
  have hhi := (p.gpr rdHi).isLt
  have hlo := (p.gpr rdLo).isLt
  apply BitVec.eq_of_toNat_eq
  rw [ProcState.accumulator, BitVec.toNat_append, ← Nat.shiftLeft_add_eq_or_of_lt hlo, Nat.shiftLeft_eq,
    BitVec.toNat_ofNat]
  omega

/-- A half of a register, read as a signed number (R198). -/
theorem halfOf_eq (top : Bool) : halfOf x top = if top then x.toInt / 65536 else (x.setWidth 16).toInt := by
  cases top with
  | false => rfl
  | true =>
    have hx := x.isLt
    have hhigh : (x.extractLsb' 16 16).toNat = x.toNat / 65536 := by
      rw [BitVec.extractLsb'_toNat, Nat.shiftRight_eq_div_pow]
      omega
    show (x.extractLsb' 16 16).toInt = x.toInt / 65536
    rw [BitVec.toInt_eq_toNat_cond, BitVec.toInt_eq_toNat_cond, hhigh]
    omega

theorem halfOf_bounds (top : Bool) : -2 ^ 15 ≤ halfOf x top ∧ halfOf x top < 2 ^ 15 := by
  cases top with
  | false => exact ⟨BitVec.le_toInt _, BitVec.toInt_lt⟩
  | true => exact ⟨BitVec.le_toInt _, BitVec.toInt_lt⟩

end

/-- Bits 47:16 of a product are its quotient by 2^16 (R199). -/
theorem productTop_eq (v : Int) : productTop v = BitVec.ofInt 32 (v / 65536) := by
  apply BitVec.eq_of_toNat_eq
  rw [productTop, BitVec.extractLsb'_toNat, Nat.shiftRight_eq_div_pow, BitVec.toNat_ofInt, BitVec.toNat_ofInt]
  omega

/-- The product of a word and a half fits 48 signed bits, so that no bit of its top is lost. -/
theorem productTop_toInt (x y : Word) (top : Bool) :
    (productTop (x.toInt * halfOf y top)).toInt = x.toInt * halfOf y top / 65536 := by
  obtain ⟨hlo, hhi⟩ := halfOf_bounds y top
  have hx : |x.toInt| ≤ 2 ^ 31 := abs_le.mpr ⟨x.le_toInt, x.toInt_lt.le⟩
  have hy : |halfOf y top| ≤ 2 ^ 15 := abs_le.mpr ⟨hlo, hhi.le⟩
  have hxy : |x.toInt * halfOf y top| ≤ 2 ^ 31 * 2 ^ 15 := by
    rw [abs_mul]
    exact mul_le_mul hx hy (abs_nonneg _) (by decide)
  obtain ⟨hl, hu⟩ := abs_le.mp hxy
  rw [productTop_eq]
  exact BitVec.toInt_ofInt_eq_self (by decide) (by omega) (by omega)

/-- A value kept modulo 2^32, and whether 32 signed bits hold it (R198, R199). -/
theorem wrapSigned32_eq (v : Int) :
    wrapSigned32 v = ⟨BitVec.ofInt 32 v, decide (v < -2147483648 ∨ 2147483647 < v)⟩ := by
  rw [Bool.decide_or, Bool.or_comm]
  rfl

theorem finishSticky_wrapSigned32 (rd : Reg) (v : Int) (n : Nat) (s : State) : finishSticky rd (wrapSigned32 v) n s =
    .next (s.wrote rd (BitVec.ofInt 32 v)
      { s.cpu.cpsr with q := s.cpu.cpsr.q || decide (v < -2147483648 ∨ 2147483647 < v) } n) := by
  rw [wrapSigned32_eq, finishSticky_eq]

section
variable {c : Cond} {s : State} {regs : List Reg}

theorem ifPassed_allowed (hc : condPassed c s.cpu.cpsr = true) (hpc : ∀ r ∈ regs, r ≠ 15#4) (f : State → Result) :
    ifPassed c s (fun s => if anyPc regs then fatal s else f s) = f s :=
  (ifPassed_of_passed hc _).trans (if_neg (not_anyPc hpc))

theorem onlyIfA_ifPassed_allowed (hA : s.cur = .A) (hc : condPassed c s.cpu.cpsr = true) (hpc : ∀ r ∈ regs, r ≠ 15#4)
    (f : State → Result) : onlyIfA s (fun s => ifPassed c s fun s => if anyPc regs then fatal s else f s) = f s :=
  (onlyIfA_of_A hA _).trans (ifPassed_allowed hc hpc f)

end

/-- Settles O36: the registers are allowed, and both forms end in the same write. -/
theorem multiplyAndAccumulate : Obligations.MultiplyAndAccumulate := by
  intro c sf rd rn rs rm s hc hrd hrn hrs hrm
  dsimp only [exec, execMul, execMla]
  rw [← multiplierCycles_eq_operandCycles]
  exact ⟨(ifPassed_allowed hc (by simp [hrd, hrs, hrm]) _).trans (finishMul_eq ..),
    (ifPassed_allowed hc (by simp [hrd, hrn, hrs, hrm]) _).trans (finishMul_eq ..)⟩

/-- Settles O37: the model's 64-bit products and sums are the exact ones modulo 2^64. -/
theorem longMultiplies : Obligations.LongMultiplies := by
  intro c sf rdHi rdLo rs rm s hc hhi hlo hrs hrm hne
  have passed := ifPassed_of_passed hc
  have finish (n : Nat) := longMultiply_eq (s := s) sf n (rs := rs) (rm := rm) (by simp [hhi, hlo, hrs, hrm]) hne
  dsimp only [exec, execUmull, execUmlal, execSmull, execSmlal]
  rw [BitVec.ofNat_add, BitVec.ofInt_add, BitVec.ofInt_natCast, ← ProcState.accumulator_eq, ← unsignedProduct_eq,
    ← signedProduct_eq, ← multiplierCycles_eq_operandCycles, ← multiplierCycles_eq_operandCycles]
  exact ⟨(passed _).trans (finish ..), (passed _).trans (finish ..), (passed _).trans (finish ..),
    (passed _).trans (finish ..)⟩

/-- Settles O38: halves, tops of products and Q as exact arithmetic, in the shape of each write. -/
theorem halfwordMultiplies : Obligations.HalfwordMultiplies := by
  intro c rd rn rs y x rm s hA hc hrd hrn hrs hrm
  have three := onlyIfA_ifPassed_allowed hA hc (regs := [rd, rs, rm]) (by simp [hrd, hrs, hrm])
  have four := onlyIfA_ifPassed_allowed hA hc (regs := [rd, rn, rs, rm]) (by simp [hrd, hrn, hrs, hrm])
  dsimp only
  rw [← halfOf_eq, ← halfOf_eq]
  refine ⟨(four _).trans (finishSticky_wrapSigned32 ..), (four _).trans ?_, (three _).trans ?_,
    (three _).trans (finishPlain_eq ..), fun hne => (onlyIfA_ifPassed_of_passed hA hc _).trans ?_⟩
  · rw [productTop_toInt, finishSticky_wrapSigned32]
  · rw [productTop_eq, finishPlain_eq]
  · have acc := s.cpu.accumulator_eq rd rn
    rw [← BitVec.ofInt_natCast, Nat.cast_add, Nat.cast_mul] at acc
    rw [acc, ← BitVec.ofInt_add]
    exact longMultiply_eq false 2 (by simp [hrd, hrn, hrs, hrm]) hne _

end Sys2Proof.Machine

namespace Sys2Proof.Machine

/-! ### User mode is confined (R268, R398, R399) -/

/-- A bank of saved status words is what its five words are; USR has none (R38). -/
theorem SpsrBank.eq_of_get? {b b' : SpsrBank} (h : ∀ m, m ≠ Mode.usr.bits → b.get? m = b'.get? m) : b = b' := by
  obtain ⟨fiq, irq, svc, abt, und⟩ := b
  obtain ⟨fiq', irq', svc', abt', und'⟩ := b'
  obtain rfl : fiq = fiq' := Option.some.inj (h Mode.fiq.bits (by decide))
  obtain rfl : irq = irq' := Option.some.inj (h Mode.irq.bits (by decide))
  obtain rfl : svc = svc' := Option.some.inj (h Mode.svc.bits (by decide))
  obtain rfl : abt = abt' := Option.some.inj (h Mode.abt.bits (by decide))
  obtain rfl : und = und' := Option.some.inj (h Mode.und.bits (by decide))
  rfl

/-- The mode and both interrupt masks are the same. -/
def SameControl (s t : State) : Prop :=
  t.cpu.cpsr.m = s.cpu.cpsr.m ∧ t.cpu.cpsr.i = s.cpu.cpsr.i ∧ t.cpu.cpsr.f = s.cpu.cpsr.f

theorem sameControl_withCpu (s : State) {f : ProcState → ProcState}
    (h : (f s.cpu).cpsr.m = s.cpu.cpsr.m ∧ (f s.cpu).cpsr.i = s.cpu.cpsr.i ∧ (f s.cpu).cpsr.f = s.cpu.cpsr.f) :
    SameControl s (s.withCpu f) := by
  rw [SameControl, State.withCpu_cpu]; exact h

theorem sameControl_advanceArm (s : State) : SameControl s s.advanceArm := sameControl_withCpu s ⟨rfl, rfl, rfl⟩

/-- Without the control field an MSR takes none of the low eight bits, whatever its mask (R268). -/
theorem getLsbD_msrBits_user (mask : BitVec 4) : ∀ k, k < 8 → (msrBits mask false).getLsbD k = false := by
  revert mask; decide

section
variable {i : Instr} {s t : State} (husr : s.cpu.cpsr.m = Mode.usr.bits)
include husr

/-- In USR mode no status can be restored (R39, R164). -/
theorem statusRestoreJump_of_usr (v : Word) : s.statusRestoreJump v = inconsistent s := by
  rw [State.statusRestoreJump, husr]; rfl

theorem after_finishDp_restore_of_usr {op : AluOp} {sf : Bool} {rd : Reg} {a : Word} {b : Shifted} {P : State → Prop}
    (write : op.isTest = false) (restore : (sf && rd == 15#4) = true) : After (finishDp op sf rd a b s) P := by
  rw [Bool.and_eq_true, beq_iff_eq] at restore
  obtain ⟨rfl, rfl⟩ := restore
  have stops : finishDp op true 15#4 a b s = inconsistent s := by
    rw [finishDp, if_neg (by simp [write])]
    exact statusRestoreJump_of_usr husr _
  rw [stops]
  trivial

theorem after_execLdmS_restore_of_usr {c : Cond} {p u w : Bool} {rn : Reg} {list : BitVec 16}
    (h15 : list.getLsbD 15 = true) : After (execLdmS c p u w rn list s) (· = s.advanceArm) := by
  have hlist : list ≠ 0#16 := by rintro rfl; cases h15
  cases hc : condPassed c s.cpu.cpsr with
  | false => rw [execLdmS, ifPassed_of_failed hc]; rfl
  | true =>
    by_cases hrn : rn = 15#4
    · rw [execLdmS, ifPassed_of_passed hc, if_pos (blockRefused_eq_true (.inr hrn))]
      trivial
    · obtain ⟨-, restores⟩ := userBankAndRestoringLoads c p u w rn list s (fun _ => []) hc hrn hlist
      obtain ⟨-, -, stops⟩ := restores h15
      have e : execLdmS c p u w rn list s = _ := stops (.inl husr)
      rw [e]
      trivial

/-- In USR mode a status-restore-and-jump does nothing but fail its condition, or it stops. -/
theorem after_restore_of_usr (hi : i.restoresStatus = true) : After (exec i s) (· = s.advanceArm) := by
  cases i with
  | andImm | eorImm | subImm | rsbImm | addImm | adcImm | sbcImm | rscImm | orrImm | movImm | bicImm | mvnImm
  | andRsi | eorRsi | subRsi | rsbRsi | addRsi | adcRsi | sbcRsi | rscRsi | orrRsi | movRsi | bicRsi | mvnRsi =>
    unfold exec
    exact after_ifPassed (after_finishDp_restore_of_usr husr rfl hi) rfl
  | andRsr | eorRsr | subRsr | rsbRsr | addRsr | adcRsr | sbcRsr | rscRsr | orrRsr | movRsr | bicRsr | mvnRsr =>
    unfold exec
    have hcharged : (s.charge 1).cpu.cpsr.m = Mode.usr.bits := by rw [State.charge_cpu]; exact husr
    exact after_ifPassed (after_ite (fun _ => trivial) fun _ => after_finishDp_restore_of_usr hcharged rfl hi) rfl
  | ldmS => exact after_execLdmS_restore_of_usr husr hi
  | _ => cases hi

/-- In USR mode an MSR to CPSR writes the flags alone, whatever fields it selects (R268). -/
theorem sameControl_msrCpsr_of_usr (mask : BitVec 4) (v : Word) : After (msrCpsr mask v s) (SameControl s) := by
  rw [msrCpsr_eq]
  refine after_ite (fun _ => trivial) fun _ => after_ite (fun _ => ?_) fun _ => trivial
  have hbits : ∀ k, k < 8 → (msrBits mask (decide (s.cpu.cpsr.m ≠ Mode.usr.bits))).getLsbD k = false := by
    rw [husr]
    exact getLsbD_msrBits_user mask
  exact sameControl_withCpu s (s.cpu.cpsr.masked_control v hbits)

theorem sameControl_msr_of_usr {byte : Nat} (hi : i.msrSelects byte = true) : After (exec i s) (SameControl s) := by
  cases i with
  | msrRegCpsr =>
    unfold exec
    exact after_ifPassed (after_ite (fun _ => trivial) fun _ => sameControl_msrCpsr_of_usr husr ..) (sameControl_advanceArm s)
  | msrImm c r =>
    cases r with
    | true => cases hi
    | false =>
      unfold exec
      exact after_ifPassed (sameControl_msrCpsr_of_usr husr ..) (sameControl_advanceArm s)
  | _ => cases hi

/-- Of the means of R398 USR mode has the software interrupt alone. -/
theorem sameControl_exec_of_usr (hswi : i.isSwi = false) (e : exec i s = .next t) : SameControl s t := by
  cases hres : i.restoresStatus with
  | true =>
    obtain rfl := (after_restore_of_usr husr hres).elim e
    exact sameControl_advanceArm s
  | false =>
    cases hmsr : i.msrSelects 0 with
    | true => exact (sameControl_msr_of_usr husr hmsr).elim e
    | false => exact ((exec_leaves i s).elim e).mode_masks hswi hmsr hres

end

/-- Settles O20: in USR mode an MSR and a status-restore-and-jump reach neither mode nor mask, nothing else does, and no
way of leaving writes another mode's saved status word. -/
theorem userModeIsConfined : Obligations.UserModeIsConfined := by
  intro i s t husr hswi e
  obtain ⟨hm, hi, hf⟩ := sameControl_exec_of_usr husr hswi e
  obtain ⟨-, hspsr⟩ := ((exec_leaves i s).elim e).spsr_of_not_swi hswi
  exact ⟨hm.trans husr, hi, hf, SpsrBank.eq_of_get? fun m hne => hspsr m (husr ▸ hne)⟩

end Sys2Proof.Machine

namespace Sys2Proof.Machine

/-! ### ARM branches (R260 to R264) -/

/-- A signed offset scaled by a power of two, as exact arithmetic (R260). -/
theorem signExtend_shiftLeft_eq_ofInt {n : Nat} (x : BitVec n) (k : Nat) :
    x.signExtend 32 <<< k = BitVec.ofInt 32 (2 ^ k * x.toInt) := by
  have hpow : BitVec.ofInt 32 (2 ^ k) = BitVec.twoPow 32 k := by
    have hcast : (2 ^ k : Int) = (2 ^ k : Nat) := by norm_cast
    rw [hcast, BitVec.ofInt_natCast]
    exact BitVec.eq_of_toNat_eq (by simp)
  rw [BitVec.shiftLeft_eq_mul_twoPow, BitVec.ofInt_mul, hpow, BitVec.mul_comm]
  rfl

section
variable (s : State) (f : ProcState → ProcState) (t : Bool) (v : Word)

theorem State.jumpTo_withCpu : (s.withCpu f).jumpTo t v = s.withCpu fun p => (f p).jumped t v (s.refill t v) := by
  rw [State.jumpTo_eq, State.withCpu_withCpu]
  rfl

theorem State.interwork_eq : s.interwork v = s.withCpu fun p => p.exchanged v (s.refill (v.getLsbD 0) v) := by
  have h := s.interwork_charge 0 v
  rwa [State.charge_zero] at h

theorem State.interwork_withCpu :
    (s.withCpu f).interwork v = s.withCpu fun p => (f p).exchanged v (s.refill (v.getLsbD 0) v) := by
  rw [State.interwork_eq, State.withCpu_withCpu]
  rfl

end

/-- Settles O48: each branch is a jump or an exchange after its link, which leaves the waitstates alone. -/
theorem armBranches : Obligations.ArmBranches := by
  intro c off24 rm h s hc target value far
  have passed := ifPassed_of_passed hc
  have htarget : s.cpu.pc + 8#32 + branchOffset off24 = target :=
    congrArg (s.cpu.pc + 8#32 + ·) (signExtend_shiftLeft_eq_ofInt off24 2)
  simp only [exec, execB, execBl, execBx, execBlxReg, execBlxImm, passed, htarget]
  refine ⟨congrArg _ (State.jumpTo_eq ..), congrArg _ ?_, congrArg _ (State.interwork_eq ..), fun hA hrm => ?_, fun hA => ?_⟩
  · exact (State.jumpTo_withCpu ..).trans (State.withCpu_congr rfl)
  · have hvalue : s.cpu.gpr rm = value := (if_neg hrm).symm
    rw [onlyIfA_of_A hA, passed, if_neg hrm, hvalue]
    exact congrArg _ ((State.interwork_withCpu ..).trans (State.withCpu_congr rfl))
  · rw [onlyIfA_of_A hA, htarget, State.setGpr, State.withCpu_withCpu, State.jumpTo_withCpu]
    exact congrArg _ (State.withCpu_congr rfl)

/-! ### Coprocessor moves of A (R275 to R277) -/

theorem coprocessorAllowed_iff_of_A {s : State} (hA : s.cur = .A) (cp : Reg) :
    coprocessorAllowed cp s = true ↔ cp = 15#4 ∧ s.cpu.cpsr.m ≠ Mode.usr.bits := by
  simp [coprocessorAllowed, hA]

theorem isWaitForInterrupt_eq (opc1 : BitVec 3) (crn : Reg) (opc2 : BitVec 3) (crm : Reg) :
    isWaitForInterrupt opc1 crn opc2 crm = decide ((opc1, crn, crm, opc2) = (0#3, 7#4, 0#4, 4#3) ∨
      (opc1, crn, crm, opc2) = (0#3, 7#4, 8#4, 2#3)) := by
  rw [Bool.eq_iff_iff]
  simp only [isWaitForInterrupt, Bool.and_eq_true, Bool.or_eq_true, beq_iff_eq, decide_eq_true_eq, Prod.mk.injEq]
  tauto

/-- Settles O51: whether the move is allowed, and whether Rd is R15, picks the branch of each meaning. -/
theorem coprocessorMoves : Obligations.CoprocessorMoves := by
  intro c opc1 crn rd cp opc2 crm s hA hc allowed x v y waits
  have hallowed : coprocessorAllowed cp s = true ↔ allowed := coprocessorAllowed_iff_of_A hA cp
  simp only [exec, execMrc, execMcr, ifPassed_of_passed hc, hallowed, isWaitForInterrupt_eq]
  refine ⟨fun ha hrd => ⟨?_, ?_⟩, fun ha hrd => ?_, fun ha => ⟨if_neg ha, if_neg fun h => ha h.1⟩,
    fun hrd => if_neg fun h => h.2 hrd⟩
  · simp only [if_pos ha, if_neg hrd]
    exact congrArg _ (State.withCpu_congr rfl)
  · exact (if_pos ⟨ha, hrd⟩).trans (congrArg _ (State.withCpu_congr rfl))
  · simp only [if_pos ha, if_pos hrd]
    exact congrArg _ (State.withCpu_congr rfl)

end Sys2Proof.Machine

namespace Sys2Proof.Machine

/-! ### The lists of the Thumb block transfers (R345 to R348) -/

theorem append_eq_setWidth_or (high low : BitVec 8) : high ++ low = low.setWidth 16 ||| (high ++ 0#8) := by
  have hlow : low.setWidth 16 = 0#8 ++ low := BitVec.setWidth_eq_append (by decide)
  rw [hlow, BitVec.or_append, BitVec.zero_or, BitVec.or_zero]

theorem pushList_eq (r : Bool) (rlist : BitVec 8) :
    pushList r rlist = rlist.setWidth 16 ||| if r then 0x4000#16 else 0#16 := by
  cases r with
  | false => exact append_eq_setWidth_or 0#8 rlist
  | true => exact append_eq_setWidth_or 0x40#8 rlist

theorem popList_false (rlist : BitVec 8) : popList false rlist = lowList rlist :=
  (append_eq_setWidth_or 0#8 rlist).trans BitVec.or_zero

theorem popList_true (rlist : BitVec 8) : popList true rlist = rlist.setWidth 16 ||| 0x8000#16 :=
  append_eq_setWidth_or 0x80#8 rlist

theorem lowList_ne_zero {rlist : BitVec 8} (h : rlist ≠ 0#8) : lowList rlist ≠ 0#16 := fun h0 => by
  have hback := congrArg (BitVec.setWidth 8) h0
  rw [lowList, BitVec.setWidth_setWidth_of_le _ (by decide), BitVec.setWidth_eq] at hback
  exact h hback

theorem pushList_ne_zero {r : Bool} {rlist : BitVec 8} (h : rlist ≠ 0#8 ∨ r = true) : pushList r rlist ≠ 0#16 := by
  rw [pushList_eq, ne_eq, BitVec.or_eq_zero_iff]
  rintro ⟨hlow, hr⟩
  obtain h | rfl := h
  · exact lowList_ne_zero h hlow
  · exact absurd hr (by decide)

theorem getLsbD_lowList_pc (rlist : BitVec 8) : (lowList rlist).getLsbD 15 = false := by simp [lowList]

theorem getLsbD_popList_pc (rlist : BitVec 8) : (popList true rlist).getLsbD 15 = true := by simp [popList_true]

theorem popList_true_ne_zero (rlist : BitVec 8) : popList true rlist ≠ 0#16 := fun h => by
  have hpc := getLsbD_popList_pc rlist
  rw [h] at hpc
  cases hpc

theorem wide_ne_pc (rb : LowReg) : wide rb ≠ 15#4 := by
  revert rb
  decide

theorem contains_regsOf_lowList (rb : LowReg) (rlist : BitVec 8) :
    (regsOf (lowList rlist)).contains (wide rb) = (lowList rlist).getLsbD rb.toNat := by
  have hrb : (wide rb).toNat = rb.toNat := BitVec.toNat_setWidth_of_le (by decide)
  rw [Bool.eq_iff_iff, List.contains_iff_mem, mem_regsOf, hrb]

/-! ### Thumb block transfers beside the ARM ones (R345 to R348) -/

theorem sameSite_busWrite (s : State) (a : Word) (w : Width) (v : Word) : SameSite s (s.busWrite a w v) := by
  unfold State.busWrite
  split
  · exact ⟨rfl, rfl⟩
  · exact (sameSite_ask s _).trans (sameSite_applyCalls _ _ _)

theorem sameSite_memWrite (s : State) (a : Word) (w : Width) (v : Word) (seq : Bool) :
    SameSite s (s.memWrite a w v seq) :=
  (sameSite_withCpu s _ rfl).trans (sameSite_busWrite ..)

theorem sameSite_writeBlock (s : State) (val : Reg → Word) (seq : Bool) (ps : List (Reg × Word)) :
    SameSite s (s.writeBlock val seq ps) := by
  induction ps generalizing s seq with
  | nil => exact .refl s
  | cons x rest ih => exact (sameSite_memWrite s x.2 .word (val x.1) seq).trans (ih _ true)

theorem sameSite_storeBlock (s : State) (m : BitVec 5) (p u w : Bool) (rn : Reg) (regs : List Reg) :
    SameSite s (s.storeBlock m p u w rn regs) := by
  simp only [State.storeBlock]
  split
  · exact (sameSite_writeBlock ..).trans (sameSite_setGpr ..)
  · exact sameSite_writeBlock ..

/-- Both instructions do the same, but that the Thumb one leaves the pc on by 2 (R345). -/
def SameButPc (s : State) (thumb arm : Instr) : Prop :=
  ∃ t, exec arm s = .next t ∧ exec thumb s = .next (t.withCpu fun q => { q with pc := s.cpu.pc + 2#32 })

theorem SameButPc.of_advance {s u : State} {thumb arm : Instr} (h : SameSite s u)
    (harm : exec arm s = .next u.advanceArm) (hthumb : exec thumb s = .next u.advanceThumb) : SameButPc s thumb arm := by
  refine ⟨_, harm, hthumb.trans (congrArg Host.Outcome.next ?_)⟩
  rw [State.advanceArm, State.withCpu_withCpu, ← h.pc]
  exact State.withCpu_congr rfl

section
variable {s : State} {p u w : Bool} {rn : Reg} {list : BitVec 16} (hlist : list ≠ 0#16)
include hlist

theorem ite_isEmpty_regsOf (r r' : Result) : (if (regsOf list).isEmpty then r else r') = r' :=
  if_neg (by simpa using regsOf_ne_nil hlist)

/-- The word that an LDM or a POP has read for R15, if R15 is listed: the last of the block. -/
theorem pcValue_loadBlock (m : BitVec 5) : pcValue (s.loadBlock m p u w rn (regsOf list)).values =
    if list.getLsbD 15 then some ((s.blockSeen p u rn (regsOf list)).word ((regsOf list).length - 1)) else none := by
  rw [State.loadBlock_eq]
  exact State.pcValue_blockSeen hlist

variable (hrn : rn ≠ 15#4)
include hrn

/-- STM without a condition: the block's work, then the next instruction (R241). -/
theorem exec_stm_al :
    exec (.stm .al p u w rn list) s = .next (s.storeBlock s.cpu.cpsr.m p u w rn (regsOf list)).advanceArm := by
  rw [exec, execStm, ifPassed_of_passed rfl, blockRefused_eq_false hrn hlist]
  rfl

/-- LDM without a condition, R15 not listed: the block's work, then the next instruction (R238). -/
theorem exec_ldm_al_advance (h15 : list.getLsbD 15 = false) : exec (.ldm .al p u w rn list) s =
    .next (s.loadBlock s.cpu.cpsr.m p u w rn (regsOf list)).s.advanceArm := by
  rw [exec, execLdm, ifPassed_of_passed rfl, blockRefused_eq_false hrn hlist]
  simp only [pcValue_loadBlock hlist, h15, Bool.false_eq_true, if_false]

/-- LDM without a condition, R15 listed: the block's work, then the load of R15 (R240). -/
theorem exec_ldm_al_loadPc (h15 : list.getLsbD 15 = true) : exec (.ldm .al p u w rn list) s =
    .next ((s.loadBlock s.cpu.cpsr.m p u w rn (regsOf list)).s.loadPc
      ((s.blockSeen p u rn (regsOf list)).word ((regsOf list).length - 1))) := by
  rw [exec, execLdm, ifPassed_of_passed rfl, blockRefused_eq_false hrn hlist]
  simp only [pcValue_loadBlock hlist, h15, Bool.false_eq_true, if_false, if_true]

end

section
variable (s : State) (rlist : BitVec 8)

/-- A POP of the pc: the block's work, then by processor an exchange or a jump within Thumb state (R346). -/
theorem exec_tPop_pc :
    let list := popList true rlist
    let t := (s.loadBlock s.cpu.cpsr.m false true true 13#4 (regsOf list)).s
    let v := (s.blockSeen false true 13#4 (regsOf list)).word ((regsOf list).length - 1)
    exec (.tPop true rlist) s = .next (if s.cur = .A then t.interwork v else t.jumpTo true v) := by
  have hlist := popList_true_ne_zero rlist
  rw [exec, execTPop, ite_isEmpty_regsOf hlist]
  simp only [pcValue_loadBlock hlist, getLsbD_popList_pc, if_true]
  cases s.cur <;> rfl

variable {rlist} (hlow : rlist ≠ 0#8)
include hlow

/-- A POP without the pc: the block's work, then the next instruction (R346). -/
theorem exec_tPop_low : exec (.tPop false rlist) s =
    .next (s.loadBlock s.cpu.cpsr.m false true true 13#4 (regsOf (lowList rlist))).s.advanceThumb := by
  have hlist := lowList_ne_zero hlow
  rw [exec, execTPop, popList_false, ite_isEmpty_regsOf hlist]
  simp only [pcValue_loadBlock hlist, getLsbD_lowList_pc, Bool.false_eq_true, if_false]

end

/-- The load of R15 at the end of an LDM, by processor (R240). -/
theorem State.loadPc_eq (t : State) (v : Word) : t.loadPc v = if t.cur = .A then t.interwork v else t.jumpTo false v := by
  rw [State.loadPc]
  cases t.cur <;> rfl

/-- Settles O59: with the same list, each is the work of the same block; what differs is how the pc is left. -/
theorem thumbBlockTransfers : Obligations.ThumbBlockTransfers := by
  intro r rb rlist s same base list
  have hlow : rlist ≠ 0#8 → list ≠ 0#16 := lowList_ne_zero
  have hpc : popList true rlist = list ||| 0x8000#16 := popList_true rlist
  have hldm : exec (.ldm .al false true true 13#4 (popList true rlist)) s = _ :=
    exec_ldm_al_loadPc (popList_true_ne_zero rlist) (by decide) (getLsbD_popList_pc rlist)
  have hcur : (s.loadBlock s.cpu.cpsr.m false true true 13#4 (regsOf (popList true rlist))).s.cur = s.cur :=
    (keeps_loadBlock ..).cur
  rw [State.loadPc_eq, hcur] at hldm
  rw [← hpc, exec_tPop_pc, hldm]
  refine ⟨fun h => ?_, fun h => ?_, fun h => ?_, fun h => ?_, fun hA => ?_, fun hB => ?_⟩
  · have hlist := pushList_ne_zero h
    rw [← pushList_eq]
    exact SameButPc.of_advance (sameSite_storeBlock ..) (exec_stm_al hlist (by decide)) (ite_isEmpty_regsOf hlist ..)
  · exact SameButPc.of_advance (sameSite_storeBlock ..) (exec_stm_al (hlow h) (wide_ne_pc rb))
      (ite_isEmpty_regsOf (hlow h) ..)
  · have hback : (regsOf (lowList rlist)).contains (wide rb) = list.getLsbD rb.toNat := contains_regsOf_lowList rb rlist
    refine SameButPc.of_advance (sameSite_loadBlock ..)
      (exec_ldm_al_advance (hlow h) (wide_ne_pc rb) (getLsbD_lowList_pc rlist)) ?_
    rw [← hback]
    exact ite_isEmpty_regsOf (hlow h) ..
  · exact SameButPc.of_advance (sameSite_loadBlock ..)
      (exec_ldm_al_advance (hlow h) (by decide) (getLsbD_lowList_pc rlist)) (exec_tPop_low s h)
  · simp only [if_pos hA]
  · have hA : s.cur ≠ .A := by simp [hB]
    simp only [if_neg hA, State.jumpTo_eq, List.length_range]
    exact ⟨_, rfl, rfl⟩

end Sys2Proof.Machine

namespace Sys2Proof.Machine

/-! ### Thumb branches (R320, R321, R349, R351, R360 to R362) -/

/-- Settles O60: each is a jump or an exchange after its link, its scaled offset exact. -/
theorem thumbBranches : Obligations.ThumbBranches := by
  intro c soff8 off11 rs s near far long value link
  have hnear : s.cpu.pc + 4#32 + soff8.signExtend 32 <<< 1 = near :=
    congrArg (s.cpu.pc + 4#32 + ·) (signExtend_shiftLeft_eq_ofInt soff8 1)
  have hfar : s.cpu.pc + 4#32 + off11.signExtend 32 <<< 1 = far :=
    congrArg (s.cpu.pc + 4#32 + ·) (signExtend_shiftLeft_eq_ofInt off11 1)
  have hprefix : off11.signExtend 32 <<< 12 = BitVec.ofInt 32 (4096 * off11.toInt) := signExtend_shiftLeft_eq_ofInt off11 12
  have hlong : s.cpu.gpr 14#4 + off11.setWidth 32 <<< 1 = long :=
    congrArg (s.cpu.gpr 14#4 + ·) ((BitVec.shiftLeft_eq_mul_twoPow ..).trans (BitVec.mul_comm ..))
  simp only [exec, execTBcond, execTB, execTBlPrefix, execTBlSuffix, execTBlxSuffix, execTBx, execTBlxReg, hnear, hfar,
    hprefix, hlong]
  refine ⟨fun hc => ?_, fun hc => ?_, congrArg _ (State.jumpTo_eq ..), congrArg _ (State.withCpu_congr rfl),
    congrArg _ ?_, fun hA => ?_, congrArg _ (State.interwork_eq ..), fun hA hrs => ?_⟩
  · rw [if_pos hc, State.jumpTo_eq]
  · exact if_neg (by simp [hc])
  · exact (State.jumpTo_withCpu ..).trans (State.withCpu_congr rfl)
  · rw [onlyIfA_of_A hA, hlong, State.setGpr, State.withCpu_withCpu, State.jumpTo_withCpu]
    exact congrArg _ (State.withCpu_congr rfl)
  · have hvalue : s.cpu.gpr rs = value := (if_neg hrs).symm
    rw [onlyIfA_of_A hA, if_neg hrs, hvalue]
    exact congrArg _ ((State.interwork_withCpu ..).trans (State.withCpu_congr rfl))

end Sys2Proof.Machine

namespace Sys2Proof.Machine

/-! ### Exception entry and the interrupt poll (R380, R381, R386 to R388) -/

/-- A processor that has entered an exception of mode m (R381), with the cycles charged for it. -/
def ProcState.entered (p : ProcState) (m : Mode) (vector lr : Word) (cycles : Nat) : ProcState :=
  { p.setBankReg m.bits 14#4 lr with
    spsr := p.spsr.put m.bits p.cpsr
    cpsr := { p.cpsr with m := m.bits, t := false, i := true }
    pc := vector
    ts := p.ts + cycles
    lastbus := none }

theorem State.enterException_charge (s : State) (m : Mode) (off lr : Word) (n : Nat) :
    (s.enterException m off lr).charge n = s.withCpu fun p => p.entered m (Config.excBase s.cur + off) lr n :=
  State.withCpu_withCpu ..

/-- The vector of the software interrupt is aligned, so that its refill is that of a jump to it (R441). -/
theorem State.enterSwi_eq (s : State) (lr : Word) : s.enterSwi lr = s.withCpu fun p =>
    p.entered .svc (Config.excBase s.cur + 0x08#32) lr (s.refill false (Config.excBase s.cur + 0x08#32)) := by
  have hrefill : s.waitCost (Config.excBase s.cur + 0x08#32) .s32 = s.refill false (Config.excBase s.cur + 0x08#32) :=
    congrArg (s.waitCost · .s32) (alignPc_excBase_swi s.cur).symm
  rw [State.enterSwi, hrefill]
  exact s.enterException_charge ..

theorem State.enterIrq_eq (s : State) : s.enterIrq = s.withCpu fun p =>
    p.entered .irq (Config.excBase s.cur + 0x18#32) (p.pc + 4#32) (s.cfg.irqEntryCycles.get s.cur) :=
  (s.enterException_charge ..).trans (State.withCpu_congr rfl)

theorem State.interruptPending_iff (s : State) : s.interruptPending = true ↔
    (s.irqs.get s.cur).enable &&& (s.irqs.get s.cur).pending ≠ 0#32 := bne_iff_ne

theorem State.irqDue_iff (s : State) : s.irqDue = true ↔
    (s.irqs.get s.cur).ime = true ∧ (s.irqs.get s.cur).enable &&& (s.irqs.get s.cur).pending ≠ 0#32 ∧
      s.cpu.cpsr.i = false ∧ s.cpu.halted = false := by
  rw [← State.interruptPending_iff, State.irqDue]
  simp only [Bool.and_eq_true, Bool.not_eq_true', and_assoc]

/-- Settles O8: the poll enters IRQ mode exactly where irqDue says so. -/
theorem pollAfterRetirement : Obligations.PollAfterRetirement := by
  intro s
  dsimp only
  rw [← s.irqDue_iff, retire, State.pollIrq]
  refine ⟨fun due => ?_, fun due => ?_⟩
  · rw [if_pos due, s.enterIrq_eq]
    rfl
  · rw [if_neg due]

/-! ### Software interrupts (R265, R350, R380, R384) -/

section
variable {s : State}

theorem exec_swi_not_handled {c : Cond} {comment24 : BitVec 24} (hc : condPassed c s.cpu.cpsr = true)
    (h : s.hleHandles (comment24.extractLsb' 16 8) = false) :
    exec (.swi c comment24) s = .next (s.enterSwi (s.cpu.pc + 4#32)) := by
  rw [exec, execSwi, ifPassed_of_passed hc, State.softwareInterrupt, h]
  rfl

theorem exec_tSwi_not_handled {value8 : BitVec 8} (h : s.hleHandles value8 = false) :
    exec (.tSwi value8) s = .next (s.enterSwi (s.cpu.pc + 2#32)) := by
  rw [exec, execTSwi, State.softwareInterrupt, h]
  rfl

/-- A software interrupt of either set that no host handler takes. -/
theorem exec_of_swi_not_handled {i : Instr} (hi : i.isSwi = true) (hh : i.handled s = false)
    (hc : ∀ c, i.condition = some c → condPassed c s.cpu.cpsr = true) :
    exec i s = .next (s.enterSwi (s.cpu.pc + if isThumb i then 2#32 else 4#32)) := by
  cases i with
  | swi c comment24 => exact exec_swi_not_handled (hc c rfl) hh
  | tSwi value8 => exact exec_tSwi_not_handled hh
  | _ => cases hi

end

/-- Settles O28: both forms are enterSwi, with the next instruction's address by the form. -/
theorem softwareInterruptEntry : Obligations.SoftwareInterruptEntry := by
  refine ⟨fun c comment24 s hc h => ?_, fun value8 s h => ?_⟩
  · rw [exec_swi_not_handled hc h, State.enterSwi_eq]
    exact congrArg Host.Outcome.next (State.withCpu_congr rfl)
  · rw [exec_tSwi_not_handled h, State.enterSwi_eq]
    exact congrArg Host.Outcome.next (State.withCpu_congr rfl)

theorem modeValid_iff {m : BitVec 5} : modeValid m = true ↔ ∃ mode : Mode, m = mode.bits := by
  refine ⟨fun h => ?_, fun ⟨mode, h⟩ => h ▸ modeValid_bits mode⟩
  simp only [modeValid, Bool.or_eq_true, beq_iff_eq] at h
  obtain (((((h | h) | h) | h) | h) | h) | h := h
  · exact ⟨.usr, h⟩
  · exact ⟨.fiq, h⟩
  · exact ⟨.irq, h⟩
  · exact ⟨.svc, h⟩
  · exact ⟨.abt, h⟩
  · exact ⟨.und, h⟩
  · exact ⟨.sys, h⟩

/-- R14 of SVC is a register of no other mode (R24). -/
theorem bank_svc_lr_ne {m : BitVec 5} (hvalid : modeValid m = true) (hm : m ≠ Mode.svc.bits) {r : Reg} (hr : r ≠ 15#4) :
    bank Mode.svc.bits 14#4 ≠ bank m r := by
  obtain ⟨mode, rfl⟩ := modeValid_iff.1 hvalid
  rw [Ne, bank_bits_eq_iff _ _ (by decide) hr, Mode.pairOffset_eq_iff]
  rintro ⟨-, h | ⟨h, -⟩ | h | ⟨h, -⟩⟩
  · exact absurd h (by decide)
  · exact absurd h (by decide)
  · exact hm (h ▸ rfl)
  · exact absurd h (by decide)

/-- MOVS PC, LR where the mode has a saved status word with a legal mode: the status-restore-and-jump to LR (R164, R384). -/
theorem exec_movs_pc_lr {t : State} {saved : Psr} (hsaved : t.cpu.spsr.get? t.cpu.cpsr.m = some saved)
    (hvalid : modeValid saved.m = true) :
    exec (.movRsi .al true 15#4 0#5 .lsl 14#4) t = .next (t.withCpu fun p =>
      { p.jumped saved.t (t.cpu.gpr 14#4) (t.refill saved.t (t.cpu.gpr 14#4)) with cpsr := saved }) := by
  obtain ⟨-, hrestore, -, -⟩ := dataProcessingToPc .mov .al 0#4 (.rsi 0#5 .lsl 14#4) t rfl trivial (by decide)
  exact hrestore saved hsaved hvalid

/-- Settles O29: SPSR_svc and LR_svc hold what MOVS PC, LR takes from them, and LR_svc is the only register written. -/
theorem softwareInterruptRoundTrip : Obligations.SoftwareInterruptRoundTrip := by
  intro i s t hi e hh ⟨hvalid, haligned⟩ hset hc
  rw [exec_of_swi_not_handled hi hh hc, hset, State.enterSwi_eq] at e
  cases e
  generalize hnext : s.cpu.pc + (if s.cpu.cpsr.t then 2#32 else 4#32) = next
  have halign : alignPc s.cpu.cpsr.t next = next := hnext ▸ alignPc_next haligned
  generalize ht : (s.withCpu fun p => p.entered .svc _ next _) = t
  have hcpu : t.cpu = s.cpu.entered .svc (Config.excBase s.cur + 0x08#32) next
      (s.refill false (Config.excBase s.cur + 0x08#32)) := ht ▸ State.withCpu_cpu ..
  have hlr : t.cpu.gpr 14#4 = next := by rw [hcpu]; exact ProcState.bankReg_setBankReg_same ..
  have hmov := exec_movs_pc_lr (t := t) (saved := s.cpu.cpsr) (by rw [hcpu]; rfl) hvalid
  refine ⟨_, hmov, ?_, ?_, fun hm r hr => ?_, ht ▸ rfl⟩
  · rw [State.withCpu_cpu]
  · rw [State.withCpu_cpu, hlr]
    exact halign
  · rw [State.withCpu_cpu, hcpu]
    exact (ProcState.bankReg_setBankReg ..).trans (if_neg (bank_svc_lr_ne hvalid hm hr))

end Sys2Proof.Machine

namespace Sys2Proof.Machine

/-! ### The step of a halted processor (R386, R392, R393) -/

theorem step_of_halted {s : State} {p : Proc} (ha : s.action = .run p) (hh : (s.cpus.get p).halted = true) :
    step s = .next (s.select p).haltedStep := by
  simp only [step, ha]
  exact if_pos hh

/-- The halt that has just ended masks nothing any more. -/
theorem State.irqDue_woken_iff (s : State) (n : Nat) : (s.charge n).wake.irqDue = true ↔
    (s.irqs.get s.cur).ime = true ∧ (s.irqs.get s.cur).enable &&& (s.irqs.get s.cur).pending ≠ 0#32 ∧
      s.cpu.cpsr.i = false := by
  have hcpu : (s.charge n).wake.cpu = { s.cpu.charge n with halted := false } := by
    rw [State.wake, State.withCpu_cpu, State.charge_cpu]
  rw [State.irqDue_iff, hcpu]
  exact and_congr Iff.rfl (and_congr Iff.rfl (and_iff_left rfl))

/-- The quantum passes; then it is for the pending interrupts, VECTOR_ON_WAKE and the masks to say what follows (R392). -/
theorem State.haltedStep_cases {s u : State} (hu : s.charge (s.cfg.haltQuantum.get s.cur).count = u) :
    ((s.irqs.get s.cur).enable &&& (s.irqs.get s.cur).pending = 0#32 → s.haltedStep = u) ∧
    ((s.irqs.get s.cur).enable &&& (s.irqs.get s.cur).pending ≠ 0#32 →
      (s.cfg.vectorOnWake = false ∨ (s.irqs.get s.cur).ime = false ∨ s.cpu.cpsr.i = true → s.haltedStep = u.wake) ∧
      (s.cfg.vectorOnWake = true → (s.irqs.get s.cur).ime = true → s.cpu.cpsr.i = false →
        s.haltedStep = u.wake.enterIrq)) := by
  have hpending : u.interruptPending = true ↔ (s.irqs.get s.cur).enable &&& (s.irqs.get s.cur).pending ≠ 0#32 :=
    hu ▸ State.interruptPending_iff _
  have hvector : (s.cfg.vectorOnWake && u.wake.irqDue) = true ↔ _ :=
    Bool.and_eq_true_iff.trans (and_congr Iff.rfl (hu ▸ s.irqDue_woken_iff _))
  simp only [State.haltedStep, hu, hpending, hvector]
  refine ⟨fun h => if_neg (not_not.2 h), fun h => ⟨fun hmask => ?_, fun hv hime hi => ?_⟩⟩
  · rw [if_pos h, if_neg]
    rintro ⟨hv, hime, -, hi⟩
    simp [hv, hime, hi] at hmask
  · rw [if_pos h, if_pos ⟨hv, hime, h, hi⟩]

/-- Settles O9: the step is haltedStep, case by case. -/
theorem haltedProcessorStep : Obligations.HaltedProcessorStep := by
  intro s p ha hh u idle awake
  obtain ⟨hidle, hpending⟩ := State.haltedStep_cases (s := s.select p) (u := idle) rfl
  rw [step_of_halted ha hh]
  refine ⟨fun h => congrArg _ (hidle h), fun h => ?_⟩
  obtain ⟨hwake, hvector⟩ := hpending h
  refine ⟨fun hmask => congrArg _ (hwake hmask), fun hv hime hi => congrArg _ ?_⟩
  rw [hvector hv hime hi, State.enterIrq_eq]
  rfl

theorem State.requestInterrupt_of_lt (s : State) (p : Proc) {id : Nat} (h : id < 32) : s.requestInterrupt p id =
    { s with irqs := s.irqs.modify p fun u => { u with pending := u.pending ||| (1#32 <<< id) } } := if_pos h

/-- An enabled interrupt that is requested is pending (R386). -/
theorem and_requested_ne_zero {enable : Word} {id : Nat} (hid : id < 32) (h : enable.getLsbD id = true) (pending : Word) :
    enable &&& (pending ||| (1#32 <<< id)) ≠ 0#32 := fun h0 => by
  have hbit := congrArg (·.getLsbD id) h0
  rw [BitVec.getLsbD_eq_getElem hid] at h
  simp [h, hid] at hbit

/-- Settles O10: by the wake of a masked interrupt, after the request has made it pending. -/
theorem maskedRequestOnlyWakes : Obligations.MaskedRequestOnlyWakes := by
  intro s p id ha hh hid henable hmask
  rw [s.requestInterrupt_of_lt p hid]
  generalize hq : s.irqs.modify p _ = irqs
  have hu : irqs.get p = { s.irqs.get p with pending := (s.irqs.get p).pending ||| (1#32 <<< id) } :=
    hq ▸ Pair.get_modify_same ..
  obtain ⟨-, hpending⟩ := haltedProcessorStep { s with irqs := irqs } p ha hh
  dsimp only at hpending
  rw [hu] at hpending
  obtain ⟨hwake, -⟩ := hpending (and_requested_ne_zero hid henable _)
  refine ⟨_, hwake (.inr hmask), ?_⟩
  simp only [State.withCpu_cpus, Pair.modify_modify, Pair.get_modify_same]

end Sys2Proof.Machine

namespace Sys2Proof.Machine

/-! ### The order of events (R405) -/

theorem Event.before_iff (e f : Event) : e.before f = true ↔
    e.activation < f.activation ∨ e.activation = f.activation ∧ e.seq < f.seq := by
  simp [Event.before]

theorem firstEvent_eq_none_iff {l : List Event} : firstEvent l = none ↔ l = [] := by
  cases l with
  | nil => exact iff_of_true rfl rfl
  | cons a rest =>
    refine iff_of_false ?_ nofun
    rw [firstEvent]
    split
    · nofun
    · split <;> nofun

/-- The first event is of the list, and nothing in the list is before it. -/
theorem firstEvent_spec {l : List Event} {e : Event} (h : firstEvent l = some e) :
    e ∈ l ∧ ∀ f ∈ l, ¬f.before e = true := by
  induction l generalizing e with
  | nil => cases h
  | cons a rest ih =>
    rw [firstEvent] at h
    split at h
    · next hrest =>
      cases h
      rw [firstEvent_eq_none_iff.1 hrest]
      simp [Event.before_iff]
    · next g hrest =>
      obtain ⟨hmem, hfirst⟩ := ih hrest
      simp only [Event.before_iff] at h hfirst ⊢
      split at h
      · cases h
        refine ⟨List.mem_cons_of_mem _ hmem, List.forall_mem_cons.2 ⟨?_, hfirst⟩⟩
        omega
      · cases h
        refine ⟨List.mem_cons_self, List.forall_mem_cons.2 ⟨?_, fun f hf => ?_⟩⟩
        · omega
        · have hg := hfirst f hf
          omega

section
variable {s : State} {m : Nat}

theorem State.due_iff {e : Event} : s.due e = true ↔ e.activation ≤ s.systemTs := decide_eq_true_iff

/-- The next event of a dispatch phase is due, nothing due on its side of the mark is before it, and it is created before the
mark if any due event is. -/
theorem State.nextEvent_spec {x : NextEvent} (h : s.nextEvent m = some x) :
    (x.event ∈ s.events ∧ x.event.activation ≤ s.systemTs) ∧
    (∀ e ∈ s.events, e.activation ≤ s.systemTs → (e.seq < m ↔ x.event.seq < m) → ¬e.before x.event = true) ∧
    ∀ e ∈ s.events, e.activation ≤ s.systemTs → e.seq < m → x.event.seq < m := by
  rw [State.nextEvent] at h
  split at h
  · next e he =>
    cases h
    obtain ⟨hmem, hfirst⟩ := firstEvent_spec he
    simp only [List.mem_filter, Bool.and_eq_true, State.due_iff, decide_eq_true_iff] at hmem hfirst
    obtain ⟨hmem, hdue, hmark⟩ := hmem
    exact ⟨⟨hmem, hdue⟩, fun f hf hfdue hside => hfirst f ⟨hf, hfdue, hside.2 hmark⟩, fun _ _ _ _ => hmark⟩
  · next hnone =>
    have hlate : ∀ f ∈ s.events, f.activation ≤ s.systemTs → ¬f.seq < m := by
      simpa [firstEvent_eq_none_iff, State.due_iff] using hnone
    split at h
    · next e he =>
      cases h
      obtain ⟨hmem, hfirst⟩ := firstEvent_spec he
      simp only [List.mem_filter, State.due_iff] at hmem hfirst
      exact ⟨hmem, fun f hf hfdue _ => hfirst f ⟨hf, hfdue⟩, fun f hf hfdue hfm => absurd hfm (hlate f hf hfdue)⟩
    · cases h

theorem State.nextEvent_eq_none_iff : s.nextEvent m = none ↔ ∀ e ∈ s.events, ¬e.activation ≤ s.systemTs := by
  refine ⟨fun h => ?_, fun h => Option.eq_none_iff_forall_ne_some.2 fun x hx => ?_⟩
  · rw [State.nextEvent] at h
    split at h
    · cases h
    · split at h
      · cases h
      · next hnone => simpa [firstEvent_eq_none_iff, State.due_iff] using hnone
  · obtain ⟨⟨hmem, hdue⟩, -⟩ := State.nextEvent_spec hx
    exact h _ hmem hdue

/-! ### The iteration (R400, R401) -/

theorem State.roundAction_of_first (h : s.behind s.cfg.first = true) : s.roundAction = .run s.cfg.first := if_pos h

theorem State.roundAction_of_other (hfirst : ¬s.behind s.cfg.first = true) (h : s.behind s.cfg.first.other = true) :
    s.roundAction = .run s.cfg.first.other := (if_neg hfirst).trans (if_pos h)

theorem State.roundAction_of_none (hfirst : ¬s.behind s.cfg.first = true) (h : ¬s.behind s.cfg.first.other = true) :
    s.roundAction = .advance := (if_neg hfirst).trans (if_neg h)

theorem State.roundAction_ne_dispatch (x : NextEvent) : s.roundAction ≠ .dispatch x := by
  rw [State.roundAction]
  split
  · nofun
  · split <;> nofun

theorem State.action_of_roundSecond (h : s.phase = .roundSecond) :
    s.action = if s.behind s.cfg.first.other then .run s.cfg.first.other else s.roundAction := by
  simp only [State.action, h]

/-- In a dispatch phase with an event due, that event is next. -/
theorem State.action_of_due (hphase : s.phase = .dispatch m) (hdue : ∃ e ∈ s.events, e.activation ≤ s.systemTs) :
    ∃ x, s.action = .dispatch x := by
  cases hx : s.nextEvent m with
  | none =>
    obtain ⟨e, he, hdue⟩ := hdue
    exact absurd hdue (State.nextEvent_eq_none_iff.1 hx e he)
  | some x => exact ⟨x, by simp only [State.action, hphase, hx]⟩

/-- Elsewhere, unless the second processor's turn has come, a round begins. -/
theorem State.action_of_not_due (hdue : ¬∃ m, s.phase = .dispatch m ∧ ∃ e ∈ s.events, e.activation ≤ s.systemTs)
    (hsecond : s.phase ≠ .roundSecond) : s.action = s.roundAction := by
  rw [State.action]
  split
  · rfl
  · next h => exact absurd h hsecond
  · next m h =>
    have hnone : s.nextEvent m = none := State.nextEvent_eq_none_iff.2 fun e he hd => hdue ⟨m, h, e, he, hd⟩
    rw [hnone]

theorem State.nextEvent_of_action {x : NextEvent} (hphase : s.phase = .dispatch m) (h : s.action = .dispatch x) :
    s.nextEvent m = some x := by
  simp only [State.action, hphase] at h
  split at h
  · next y hy =>
    cases h
    exact hy
  · exact absurd h (State.roundAction_ne_dispatch x)

end

/-- Settles O11: by the phase, and within a round by who is behind. -/
theorem stepFollowsTheIteration : Obligations.StepFollowsTheIteration := by
  intro s behind pending
  have hbehind : ∀ p, s.behind p = true ↔ behind p := fun p => by
    cases p <;> exact decide_eq_true_iff
  simp only [← hbehind]
  refine ⟨fun ⟨m, hphase, hdue⟩ => State.action_of_due hphase hdue, fun hp h2 hf => ?_, fun hp ho hturn => ?_,
    fun h2 ho hf => ?_, fun hp hA hB => ?_⟩
  · rw [State.action_of_not_due hp h2, State.roundAction_of_first hf]
  · by_cases h2 : s.phase = .roundSecond
    · rw [State.action_of_roundSecond h2, if_pos ho]
    · rw [State.action_of_not_due hp h2, State.roundAction_of_other (hturn.resolve_left h2) ho]
  · rw [State.action_of_roundSecond h2, if_neg ho, State.roundAction_of_first hf]
  · have hnone : ∀ p, ¬s.behind p = true := fun p => by
      cases p
      · exact hA
      · exact hB
    have hround := State.roundAction_of_none (hnone s.cfg.first) (hnone s.cfg.first.other)
    by_cases h2 : s.phase = .roundSecond
    · rw [State.action_of_roundSecond h2, if_neg (hnone _), hround]
    · rw [State.action_of_not_due hp h2, hround]

/-- Settles O12: the delta is the quantum, the distance to the first event, or 0. -/
theorem clockAdvanceIsBounded : Obligations.ClockAdvanceIsBounded := by
  intro s ha
  refine ⟨s.clockAdvance, by simp only [step, ha]; rfl, ?_⟩
  rw [State.clockAdvance]
  split
  · next hnone =>
    rw [firstEvent_eq_none_iff.1 hnone]
    simp
  · next e he =>
    obtain ⟨hmem, hfirst⟩ := firstEvent_spec he
    have hle : ∀ f ∈ s.events, e.activation ≤ f.activation := fun f hf => by
      have hbefore := hfirst f hf
      rw [Event.before_iff] at hbefore
      omega
    split
    · next hfuture =>
      refine ⟨min_le_left _ _, fun f hf _ => ?_, fun h => ⟨e, hmem, ?_⟩, fun ⟨f, hf, hdue⟩ => ?_⟩
      · have hnear := hle f hf
        omega
      · omega
      · have hnear := hle f hf
        omega
    · next hdue => exact ⟨Nat.zero_le _, fun f _ h => h.le, fun _ => ⟨e, hmem, not_lt.1 hdue⟩, fun _ => rfl⟩

/-! ### The queue while an event is handled (R404) -/

/-- No event has left the queue, and those that have come were created after all that were in it. -/
structure QueueGrows (s t : State) : Prop where
  nextSeq : s.nextSeq ≤ t.nextSeq
  stays : ∀ e ∈ s.events, e ∈ t.events
  comes : ∀ e ∈ t.events, e ∈ s.events ∨ s.nextSeq ≤ e.seq

theorem QueueGrows.of_eq {s t : State} (hevents : t.events = s.events) (hseq : t.nextSeq = s.nextSeq) : QueueGrows s t :=
  ⟨hseq.ge, fun _ he => hevents ▸ he, fun _ he => .inl (hevents ▸ he)⟩

theorem QueueGrows.trans {s t u : State} (h : QueueGrows s t) (k : QueueGrows t u) : QueueGrows s u where
  nextSeq := h.nextSeq.trans k.nextSeq
  stays := fun e he => k.stays e (h.stays e he)
  comes := fun e he => (k.comes e he).elim (h.comes e) fun hs => .inr (h.nextSeq.trans hs)

theorem queueGrows_applyCall (s : State) (src : CallSource) (c : Call) : QueueGrows s (s.applyCall src c) := by
  cases c with
  | schedule id activation =>
    refine ⟨Nat.le_succ _, fun e he => List.mem_append_left _ he, fun e he => ?_⟩
    obtain he | he := List.mem_append.1 he
    · exact .inl he
    · exact .inr (List.mem_singleton.1 he ▸ le_refl _)
  | requestInterrupt | setWaitstate | writeCell | halt =>
    simp only [State.applyCall, State.requestInterrupt]
    split <;> exact .of_eq rfl rfl
  | _ => exact .of_eq rfl rfl

theorem queueGrows_applyCalls (s : State) (src : CallSource) (cs : List Call) : QueueGrows s (s.applyCalls src cs) := by
  induction cs generalizing s with
  | nil => exact .of_eq rfl rfl
  | cons c cs ih => exact (queueGrows_applyCall s src c).trans (ih _)

theorem State.dispatchEvent_queueGrows (s : State) (x : NextEvent) : QueueGrows (s.dequeued x) (s.dispatchEvent x) :=
  (QueueGrows.of_eq (State.ask_events ..) (State.ask_nextSeq ..)).trans (queueGrows_applyCalls ..)

theorem State.dispatchEvent_outbox (s : State) (x : NextEvent) :
    (s.dispatchEvent x).outbox = .event x.event.id :: s.outbox :=
  (State.applyCalls_outbox ..).trans (State.ask_outbox ..)

theorem EventsOk.nodup_seq {s : State} (h : EventsOk s) : (s.events.map Event.seq).Nodup :=
  List.pairwise_map.2 (h.1.imp Nat.ne_of_lt)

/-- Settles O13: the event is the phase's next, its order strict since no two events have one number; what its handler
schedules has a number of its own. -/
theorem eventsLeaveInOrder : Obligations.EventsLeaveInOrder := by
  rintro s x m ⟨-, -, hsorted, hbelow⟩ hphase ha
  have hok : EventsOk s := ⟨hsorted, hbelow⟩
  obtain ⟨⟨hmem, hdue⟩, hfirst, hmark⟩ := State.nextEvent_spec (State.nextEvent_of_action hphase ha)
  have hgrows := s.dispatchEvent_queueGrows x
  obtain ⟨hkeeps, hcpus⟩ := s.dispatchEvent_keeps x
  refine ⟨⟨hmem, hdue⟩, fun e he hedue hne hside => ?_, hmark, s.dispatchEvent x, by simp only [step, ha],
    s.dispatchEvent_outbox x, hkeeps.systemTs, hcpus, ⟨x.mark, hkeeps.phase⟩, fun hin => ?_, fun e he hne => ?_⟩
  · have hbefore := hfirst e he hedue hside
    have hseq : e.seq ≠ x.event.seq := fun h => hne (List.inj_on_of_nodup_map hok.nodup_seq he hmem h)
    rw [Event.before_iff] at hbefore
    omega
  · obtain hin | hlate := hgrows.comes _ hin
    · exact hok.nodup_seq.of_map.not_mem_erase hin
    · exact absurd (hbelow _ hmem) (not_lt.2 hlate)
  · exact hgrows.stays e ((List.mem_erase_of_ne hne).2 he)

end Sys2Proof.Machine

namespace Sys2Proof.Machine

/-! ### The values at reset (R420, R421) -/

@[simp] theorem ProcState.bankReg_reset (p : Proc) (m : BitVec 5) (i : Reg) :
    (ProcState.reset p).bankReg m i = 0#32 :=
  Vector.getElem_replicate (bank m i).isLt

theorem Psr.toWord_reset : Psr.reset.toWord = 0x000000D3#32 := by decide

theorem Psr.toWord_zero : Psr.zero.toWord = 0#32 := by decide

/-- The saved-status word of a mode is one of the five (R38). -/
theorem SpsrBank.get?_cases {b : SpsrBank} {m : BitVec 5} {v : Psr} (h : b.get? m = some v) :
    v = b.fiq ∨ v = b.irq ∨ v = b.svc ∨ v = b.abt ∨ v = b.und := by
  unfold SpsrBank.get? at h
  split_ifs at h <;> cases h <;> simp

theorem ProcState.spsr_reset {p : Proc} {m : BitVec 5} {v : Psr} (h : (ProcState.reset p).spsr.get? m = some v) :
    v = Psr.zero := by
  obtain h | h | h | h | h := SpsrBank.get?_cases h <;> exact h

theorem State.cpus_reset (p : Proc) : State.reset.cpus.get p = ProcState.reset p := by
  cases p <;> rfl

theorem State.irqs_reset (p : Proc) : State.reset.irqs.get p = ⟨false, 0#32, 0#32⟩ := by
  cases p <;> rfl

/-- Settles O19: each processor starts as its ProcState.reset, where every register place is 0 and every saved-status
word is Psr.zero, whatever the mode. -/
theorem resetState : Obligations.ResetState := by
  refine ⟨fun p => ?_, rfl, rfl⟩
  rw [State.cpus_reset]
  exact ⟨ProcState.bankReg_reset p, by cases p <;> rfl, Psr.toWord_reset,
    fun m v h => ProcState.spsr_reset h ▸ Psr.toWord_zero, rfl, rfl, rfl, State.irqs_reset p⟩

end Sys2Proof.Machine
